-- ==== Sys2Proof/Word.lean ====
section
/-! DEFINITION. The words of the hash-mixer unit: bytes, 32-bit and 64-bit hash values, the five fields of a request
(spec/30_encoding.md R70) and the two of a response (R71). Bit 0 is the least significant bit (spec/00_scope.md R21);
arithmetic is that of BitVec, modulo 2^n, with logical shifts (R22). -/

namespace Sys2Proof

/-- A `u8`: the byte operand of a byte step (R75). -/
abbrev Byte := BitVec 8

/-- A `u32`: a hash value of width 32 (R3). -/
abbrev Word32 := BitVec 32

/-- A `u64`: a hash value of width 64 (R3), and the width of every operand port (R70). -/
abbrev Word64 := BitVec 64

/-- The two widths a hash value may have (R3, R7). -/
inductive Width where
  | w32
  | w64
deriving DecidableEq, Repr

/-- The number of bits of a hash value of the width. -/
abbrev Width.bits : Width → Nat
  | .w32 => 32
  | .w64 => 64

/-- `REQ` (R70): the command byte and the four operand ports. -/
structure Request where
  cmd : BitVec 8
  a : Word64
  b : Word64
  c : Word64
  d : Word64
deriving DecidableEq, Repr

/-- `RSP` (R71): the result and the error bit. -/
structure Response where
  r : Word64
  err : Bool
deriving DecidableEq, Repr

end Sys2Proof
end

