-- ==== Sys2Proof/Syntax.lean ====
section
/-! DEFINITION. The instructions of the unit: one constructor for each of the 19 legal command bytes of
spec/30_encoding.md R78, carrying the operands the row's column "reads" names, each at the width that is read
(R74 for hash-typed operands, R75 for bytes, R76 for the operands that are always 64 bits). Port bits a row does not
read are no operand (R72). -/

namespace Sys2Proof

/-- A legal request, decoded: the operation and the operand bits it reads (R78). -/
inductive Instr where
  | larson32 (state : Word32) (byte : Byte)
  | larson64 (state : Word64) (byte : Byte)
  | fnv1a32 (state : Word32) (byte : Byte) (prime : Word64)
  | fnv1a64 (state : Word64) (byte : Byte) (prime : Word64)
  | fnv1ad32 (state : Word32) (byte : Byte)
  | fnv1ad64 (state : Word64) (byte : Byte)
  | crc32c (state : Word32) (byte : Byte)
  | crc32cs (state : Word32) (byte : Byte)
  | hint32I32 (value : Word32) (seed : Word32)
  | hint32I64 (value : Word64) (seed : Word32)
  | hint64 (value : Word64) (seed : Word64)
  | combp32 (existing : Word32) (new : Word32) (prime : Word32)
  | combp64 (existing : Word64) (new : Word64) (prime : Word64)
  | comb32 (existing : Word32) (new : Word32)
  | comb64 (existing : Word64) (new : Word64)
  | smix32 (seed : Word32) (hash : Word32) (tableSize : Word64) (mixConstant : Word64)
  | smix64 (seed : Word64) (hash : Word64) (tableSize : Word64) (mixConstant : Word64)
  | smixd32 (seed : Word32) (hash : Word32) (tableSize : Word64)
  | smixd64 (seed : Word64) (hash : Word64) (tableSize : Word64)
deriving DecidableEq, Repr

end Sys2Proof
end

