-- ==== Sys2Proof/WellFormed.lean ====
section
/-! DEFINITION. When a request is well formed: the field rules of the command byte, spec/30_encoding.md R73, R79 and
R81. Legality is decided by the command byte alone (R70, R80), and an Instr's operands have exactly the widths that are
read, so every term of Instr is well formed; the checks below are those that a command byte can fail. They are written
from the prose of R79, and Decode.lean from the table of R78: that the two agree is a statement, not a definition. -/

namespace Sys2Proof

/-- `OP = CMD[3:0]` (R73). -/
def cmdOp (cmd : BitVec 8) : BitVec 4 := cmd.extractLsb' 0 4

/-- `W = CMD[4]` (R73). -/
def cmdW (cmd : BitVec 8) : BitVec 1 := cmd.extractLsb' 4 1

/-- `IW = CMD[5]` (R73). -/
def cmdIw (cmd : BitVec 8) : BitVec 1 := cmd.extractLsb' 5 1

/-- `RSV = CMD[7:6]` (R73). -/
def cmdRsv (cmd : BitVec 8) : BitVec 2 := cmd.extractLsb' 6 2

/-- `RSV` must be 0 (R73). -/
def rsvClear (cmd : BitVec 8) : Bool := cmdRsv cmd == 0

/-- `OP` is one of the ten operation codes (R79). -/
def opAssigned (cmd : BitVec 8) : Bool := cmdOp cmd <= 9

/-- `IW = 1` belongs to `HINT` alone (R73, R79). -/
def iwOnlyHint (cmd : BitVec 8) : Bool := cmdIw cmd == 0 || cmdOp cmd == 5

/-- `CRC32C` and `CRC32CS` exist at `W = 0` only (R79, spec/90_conflicts.md C11). -/
def crcNarrow (cmd : BitVec 8) : Bool := cmdW cmd == 0 || (cmdOp cmd != 3 && cmdOp cmd != 4)

/-- `HINT` at `W = 1` exists with `IW = 1` only (R79, R81). -/
def hintWidened (cmd : BitVec 8) : Bool := cmdW cmd == 0 || cmdIw cmd == 1 || cmdOp cmd != 5

/-- The command byte is legal (R73, R79). -/
def commandLegal (cmd : BitVec 8) : Bool :=
  rsvClear cmd && opAssigned cmd && iwOnlyHint cmd && crcNarrow cmd && hintWidened cmd

/-- A request is well formed when its command byte is legal, whatever its ports hold (R80). -/
def Request.wellFormed (q : Request) : Bool := commandLegal q.cmd

end Sys2Proof
end

