-- ==== Sys2Proof/Config.lean ====
section
/-! DEFINITION. What an implementation fixes, and the free values. The constants whose values the spec states
(spec/00_scope.md R8 to R12) are definitions. The constants it names without a value (R14 to R20, and for the software
layer R19, R131, R193, R202, R209, R211) are opaque: nothing in Lean can evaluate them, so a theorem holds whatever they
are (log entry 9). The defaults, which are general knowledge and not the source's (spec/93_implementation_defined.md G1
to G6, G11; log entry 13), stand in `Params.defaults` and `SoftParams.defaults`; no meaning uses them. -/

namespace Sys2Proof

/-- `FNV_PRIME_32` (R8). -/
def fnvPrime32 : Word32 := 0x01000193#32

/-- `FNV_PRIME_64` (R8). -/
def fnvPrime64 : Word64 := 0x00000100000001B3#64

/-- `CRC32C_POLY_REFLECTED` (R9). -/
def crc32cPolyReflected : Word32 := 0x82F63B78#32

/-- The Castagnoli polynomial in normal form (R9). -/
def crc32cPolyNormal : Word32 := 0x1EDC6F41#32

/-- `KNUTH_MULTIPLIER_32` (R11). -/
def knuthMultiplier32 : Word32 := 0x045D9F3B#32

/-- `WANG_C1` (R12). -/
def wangC1 : Word64 := 0xBF58476D1CE4E5B9#64

/-- `WANG_C2` (R12). -/
def wangC2 : Word64 := 0x94D049BB133111EB#64

/-- The parameters of the unit that the source names without a value (spec/00_scope.md section 5.2). -/
structure Params where
  /-- `GOLDEN_RATIO_32` (R14). -/
  goldenRatio32 : Word32
  /-- `GOLDEN_RATIO_64` (R14). -/
  goldenRatio64 : Word64
  /-- `COMB_C1` (R15). -/
  combC1 : Word64
  /-- `COMB_C2` (R15). -/
  combC2 : Word64
  /-- `SMIX_C1` (R16). -/
  smixC1 : Word64
  /-- `SMIX_C2` (R16). -/
  smixC2 : Word64
  /-- `MIX_CONSTANT_DEFAULT` (R17). -/
  mixConstantDefault : Word64
  /-- `WMIX32` (R18). -/
  wmix32 : Word32 → Word32
  /-- `HW_CRC_PRESENT` (R20). -/
  hwCrcPresent : Bool

/-- `GOLDEN_RATIO_32`, value left open (R14). -/
opaque Config.goldenRatio32 : Word32

/-- `GOLDEN_RATIO_64`, value left open (R14). -/
opaque Config.goldenRatio64 : Word64

/-- `COMB_C1`, value left open (R15, spec/90_conflicts.md C3). -/
opaque Config.combC1 : Word64

/-- `COMB_C2`, value left open (R15, spec/90_conflicts.md C3). -/
opaque Config.combC2 : Word64

/-- `SMIX_C1`, value left open (R16). -/
opaque Config.smixC1 : Word64

/-- `SMIX_C2`, value left open (R16). -/
opaque Config.smixC2 : Word64

/-- `MIX_CONSTANT_DEFAULT`, value left open (R17). -/
opaque Config.mixConstantDefault : Word64

/-- `WMIX32`: a total function of its 32-bit argument alone, otherwise left open (R18). -/
opaque Config.wmix32 : Word32 → Word32

/-- `HW_CRC_PRESENT`, the answer of the capability probe, left open (R20). -/
opaque Config.hwCrcPresent : Bool

/-- The parameters of this unit, every one of them open. -/
def Config.params : Params where
  goldenRatio32 := Config.goldenRatio32
  goldenRatio64 := Config.goldenRatio64
  combC1 := Config.combC1
  combC2 := Config.combC2
  smixC1 := Config.smixC1
  smixC2 := Config.smixC2
  mixConstantDefault := Config.mixConstantDefault
  wmix32 := Config.wmix32
  hwCrcPresent := Config.hwCrcPresent

/-- FREE VALUE: `RSP.R` of the response to a reserved command, at the draw's number (R231, log entry 4). -/
opaque Config.unspecifiedResult : Nat → Word64

/-- FREE VALUE: `CAP_HW` after a reset, at the draw's number (R261, log entry 5). -/
opaque Config.capHwAfterReset : Nat → Bool

/-- FREE VALUE: which outstanding request's requester is served next, at the draw's number (R240, log entry 7). -/
opaque Config.arbiter : Nat → Nat

/-- FREE VALUE: how many other requests may be served before a request that has been issued is, at the draw's number. It is
finite, and nothing else is known of it: that is the fairness of R268 (log entry 21). -/
opaque Config.patience : Nat → Nat

/-- The defaults of spec/00_scope.md R14 to R18 (general knowledge, not the source's; PRESUMED, log entry 13). They are
what the vectors of spec/95_test_vectors.md are computed with; the machine does not use them. -/
def Params.defaults : Params where
  goldenRatio32 := 0x9E3779B9#32
  goldenRatio64 := 0x9E3779B97F4A7C15#64
  combC1 := 0xFF51AFD7ED558CCD#64
  combC2 := 0xC4CEB9FE1A85EC53#64
  smixC1 := 0xFF51AFD7ED558CCD#64
  smixC2 := 0xC4CEB9FE1A85EC53#64
  mixConstantDefault := 0x2545F4914F6CDD1D#64
  wmix32 := fun x =>
    let x1 := x ^^^ (x >>> 12)
    let x2 := x1 ^^^ (x1 <<< 25)
    x2 ^^^ (x2 >>> 27)
  hwCrcPresent := false

/-- The open parameters of the software layer above the unit (spec/45_host_compositions.md R190). -/
structure SoftParams where
  /-- `FNV_OFFSET_BASIS_32` (R19). -/
  fnvOffsetBasis32 : Word32
  /-- `FNV_OFFSET_BASIS_64` (R19). -/
  fnvOffsetBasis64 : Word64
  /-- `CANON_NAN_32` (R193). -/
  canonNan32 : Word32
  /-- `CANON_NAN_64` (R193). -/
  canonNan64 : Word64
  /-- `WIDEN` (R131): whether an integer type is sign-extended, given whether the type is signed. -/
  widenSignExtends : Bool → Bool
  /-- `PTR_WIDTH` (R202). -/
  ptrWidth : Width
  /-- `LEN_WIDTH`, of a length and of a variant's index (R209, R210). -/
  lenWidth : Width
  /-- Whether a length and a variant's index are of a signed type: the spec does not say (R209, R210, log entry 19). -/
  lenSigned : Bool
  /-- `PLATFORM_HASH` (R211), at the width of the hash wanted, of an opaque value. -/
  platformHash : (w : Width) → Nat → BitVec w.bits

/-- `FNV_OFFSET_BASIS_32`, value left open (R19). -/
opaque Config.fnvOffsetBasis32 : Word32

/-- `FNV_OFFSET_BASIS_64`, value left open (R19). -/
opaque Config.fnvOffsetBasis64 : Word64

/-- `CANON_NAN_32`, value left open (R193). -/
opaque Config.canonNan32 : Word32

/-- `CANON_NAN_64`, value left open (R193). -/
opaque Config.canonNan64 : Word64

/-- `WIDEN`, left open (R131, R200). -/
opaque Config.widenSignExtends : Bool → Bool

/-- Whether `PTR_WIDTH` is 64, left open (R202). -/
opaque Config.ptrIs64 : Bool

/-- Whether `LEN_WIDTH` is 64, left open (R209, R210). -/
opaque Config.lenIs64 : Bool

/-- Whether the type of a length and of a variant's index is signed, which the spec leaves open without a name for it
(R209, R210, log entry 19). -/
opaque Config.lenSigned : Bool

/-- `PLATFORM_HASH`, outside the spec (R211). -/
opaque Config.platformHash : (w : Width) → Nat → BitVec w.bits

/-- The parameters of the software layer, every one of them open. -/
def Config.softParams : SoftParams where
  fnvOffsetBasis32 := Config.fnvOffsetBasis32
  fnvOffsetBasis64 := Config.fnvOffsetBasis64
  canonNan32 := Config.canonNan32
  canonNan64 := Config.canonNan64
  widenSignExtends := Config.widenSignExtends
  ptrWidth := if Config.ptrIs64 then .w64 else .w32
  lenWidth := if Config.lenIs64 then .w64 else .w32
  lenSigned := Config.lenSigned
  platformHash := Config.platformHash

/-- The defaults of R19 and R193 (general knowledge; PRESUMED, log entry 13) and, for the parameters that have none,
a choice that the vectors of spec/95_test_vectors.md do not depend on. The machine does not use them. -/
def SoftParams.defaults : SoftParams where
  fnvOffsetBasis32 := 0x811C9DC5#32
  fnvOffsetBasis64 := 0xCBF29CE484222325#64
  canonNan32 := 0x7FC00000#32
  canonNan64 := 0x7FF8000000000000#64
  widenSignExtends := id
  ptrWidth := .w64
  lenWidth := .w64
  lenSigned := false
  platformHash := fun _ _ => 0

end Sys2Proof
end

