-- ==== Sys2Proof/Machine/Operands.lean ====
section
/-! DEFINITION. Operand assembly: which bits of a port an operand takes, spec/30_encoding.md R74 to R76, and the way
back, an operand put on its port with the unread bits 0 (R82). There is no sign extension (spec/00_scope.md R22). -/

namespace Sys2Proof.Machine

/-- A hash-typed operand at `W = 32`: the low half of its port (R74). -/
def hashOperand32 (port : Word64) : Word32 := port.extractLsb' 0 32

/-- A hash-typed operand at `W = 64`: the whole port (R74). -/
def hashOperand64 (port : Word64) : Word64 := port

/-- The byte operand of a byte step: `B[7:0]` (R75). -/
def byteOperand (port : Word64) : Byte := port.extractLsb' 0 8

/-- An operand the source types `u64` at either width: the whole port (R76). -/
def u64Operand (port : Word64) : Word64 := port

/-- `zext_64` of a 32-bit value (R22). -/
def zext64 (v : Word32) : Word64 := v.setWidth 64

/-- `zext_32` of a byte (R22). -/
def byteTo32 (v : Byte) : Word32 := v.setWidth 32

/-- `zext_64` of a byte (R22). -/
def byteTo64 (v : Byte) : Word64 := v.setWidth 64

/-- `trunc_32` of a 64-bit value (R22). -/
def trunc32 (v : Word64) : Word32 := v.setWidth 32

end Sys2Proof.Machine
end

