-- ==== Sys2Proof/Decode.lean ====
section
/-! DEFINITION. The packed forms of requests and responses (spec/30_encoding.md R70, R71), the opcode map of R78, the
decoder, total on every request, which rejects a reserved command byte under the name of its class (R79), and after it
the encoder (R82: ports not read are driven with 0). -/

namespace Sys2Proof

open Sys2Proof.Machine

/-- The fields of a packed request (R70). -/
def Request.ofPacked (w : BitVec 264) : Request where
  cmd := w.extractLsb' 0 8
  a := w.extractLsb' 8 64
  b := w.extractLsb' 72 64
  c := w.extractLsb' 136 64
  d := w.extractLsb' 200 64

/-- The request whose packed form is the number `w`: each field read at its bit position in R70. -/
def Request.ofNumber (w : Nat) : Request where
  cmd := BitVec.ofNat 8 w
  a := BitVec.ofNat 64 (w >>> 8)
  b := BitVec.ofNat 64 (w >>> 72)
  c := BitVec.ofNat 64 (w >>> 136)
  d := BitVec.ofNat 64 (w >>> 200)

/-- The packed form of a request (R70): `D`, `C`, `B`, `A`, `CMD` from the top bit down. -/
def Request.toPacked (q : Request) : BitVec 264 := q.d ++ q.c ++ q.b ++ q.a ++ q.cmd

/-- The fields of a packed response (R71). -/
def Response.ofPacked (w : BitVec 65) : Response where
  r := w.extractLsb' 0 64
  err := w.getLsbD 64

/-- The packed form of a response (R71): `ERR` above `R`. -/
def Response.toPacked (p : Response) : BitVec 65 := BitVec.ofBool p.err ++ p.r

/-- One row of the opcode map R78: the mnemonic, the command byte, how many ports the operation reads from `A` on, and
the operation with its operands assembled from the ports. -/
structure OpRow where
  mnemonic : String
  cmd : BitVec 8
  ports : Nat
  build : Request → Instr

/-- The byte steps: rows `LARSON` to `CRC32CS` of R78. -/
def byteStepRows : List OpRow :=
  [ ⟨"LARSON.32", 0x00#8, 2, fun q => .larson32 (hashOperand32 q.a) (byteOperand q.b)⟩,
    ⟨"LARSON.64", 0x10#8, 2, fun q => .larson64 (hashOperand64 q.a) (byteOperand q.b)⟩,
    ⟨"FNV1A.32", 0x01#8, 3, fun q => .fnv1a32 (hashOperand32 q.a) (byteOperand q.b) (u64Operand q.c)⟩,
    ⟨"FNV1A.64", 0x11#8, 3, fun q => .fnv1a64 (hashOperand64 q.a) (byteOperand q.b) (u64Operand q.c)⟩,
    ⟨"FNV1AD.32", 0x02#8, 2, fun q => .fnv1ad32 (hashOperand32 q.a) (byteOperand q.b)⟩,
    ⟨"FNV1AD.64", 0x12#8, 2, fun q => .fnv1ad64 (hashOperand64 q.a) (byteOperand q.b)⟩,
    ⟨"CRC32C", 0x03#8, 2, fun q => .crc32c (hashOperand32 q.a) (byteOperand q.b)⟩,
    ⟨"CRC32CS", 0x04#8, 2, fun q => .crc32cs (hashOperand32 q.a) (byteOperand q.b)⟩ ]

/-- The integer hash and the combine rows of R78. -/
def hashRows : List OpRow :=
  [ ⟨"HINT.32.I32", 0x05#8, 2, fun q => .hint32I32 (hashOperand32 q.a) (hashOperand32 q.b)⟩,
    ⟨"HINT.32.I64", 0x25#8, 2, fun q => .hint32I64 (hashOperand64 q.a) (hashOperand32 q.b)⟩,
    ⟨"HINT.64", 0x35#8, 2, fun q => .hint64 (hashOperand64 q.a) (hashOperand64 q.b)⟩,
    ⟨"COMBP.32", 0x06#8, 3, fun q => .combp32 (hashOperand32 q.a) (hashOperand32 q.b) (hashOperand32 q.c)⟩,
    ⟨"COMBP.64", 0x16#8, 3, fun q => .combp64 (hashOperand64 q.a) (hashOperand64 q.b) (hashOperand64 q.c)⟩,
    ⟨"COMB.32", 0x07#8, 2, fun q => .comb32 (hashOperand32 q.a) (hashOperand32 q.b)⟩,
    ⟨"COMB.64", 0x17#8, 2, fun q => .comb64 (hashOperand64 q.a) (hashOperand64 q.b)⟩ ]

/-- The seed-mix rows of R78. -/
def seedMixRows : List OpRow :=
  [ ⟨"SMIX.32", 0x08#8, 4,
      fun q => .smix32 (hashOperand32 q.a) (hashOperand32 q.b) (u64Operand q.c) (u64Operand q.d)⟩,
    ⟨"SMIX.64", 0x18#8, 4,
      fun q => .smix64 (hashOperand64 q.a) (hashOperand64 q.b) (u64Operand q.c) (u64Operand q.d)⟩,
    ⟨"SMIXD.32", 0x09#8, 3, fun q => .smixd32 (hashOperand32 q.a) (hashOperand32 q.b) (u64Operand q.c)⟩,
    ⟨"SMIXD.64", 0x19#8, 3, fun q => .smixd64 (hashOperand64 q.a) (hashOperand64 q.b) (u64Operand q.c)⟩ ]

/-- The opcode map (R78): a decoder compares all eight bits of `CMD`. -/
def opTable : List OpRow := byteStepRows ++ hashRows ++ seedMixRows

/-- The classes of reserved command bytes, in the order R79 lists them. They name why a byte is rejected; the unit
reports one cause only (spec/60_exceptions.md R231, log entry 14). -/
inductive Reserved where
  /-- `RSV` is not 0. -/
  | rsvNotZero
  /-- `OP` is `0xA` to `0xF`. -/
  | opUnassigned
  /-- `IW = 1` with an `OP` other than `HINT`'s. -/
  | iwWithoutHint
  /-- `CRC32C` or `CRC32CS` with `W = 1`. -/
  | crcWide
  /-- `HINT` with `W = 1` and `IW = 0`. -/
  | hintNotWidened
deriving DecidableEq, Repr

/-- The class of a reserved command byte: the first clause of R79 that it falls under. -/
def reservedClass (cmd : BitVec 8) : Reserved :=
  if !rsvClear cmd then .rsvNotZero
  else if !opAssigned cmd then .opUnassigned
  else if !iwOnlyHint cmd then .iwWithoutHint
  else if !crcNarrow cmd then .crcWide
  else .hintNotWidened

/-- The row of the opcode map for a command byte, if it has one. -/
def rowOf (cmd : BitVec 8) : Option OpRow := opTable.find? (fun row => row.cmd == cmd)

/-- The decoder: the operation is decided by `CMD` alone (R70), and bits a row does not read are ignored (R72). -/
def decode (q : Request) : Except Reserved Instr :=
  match rowOf q.cmd with
  | some row => .ok (row.build q)
  | none => .error (reservedClass q.cmd)

/-- The decoder on the packed form of a request (R70). -/
def decodePacked (w : BitVec 264) : Except Reserved Instr := decode (Request.ofPacked w)

/-- A request with the ports it does not name driven with 0 (R82). -/
def requestOf (cmd : BitVec 8) (a b c d : Word64) : Request := ⟨cmd, a, b, c, d⟩

/-- The encoder: the request of an instruction (R78, R82). -/
def encode : Instr → Request
  | .larson32 st by_ => requestOf 0x00#8 (zext64 st) (byteTo64 by_) 0 0
  | .larson64 st by_ => requestOf 0x10#8 st (byteTo64 by_) 0 0
  | .fnv1a32 st by_ p => requestOf 0x01#8 (zext64 st) (byteTo64 by_) p 0
  | .fnv1a64 st by_ p => requestOf 0x11#8 st (byteTo64 by_) p 0
  | .fnv1ad32 st by_ => requestOf 0x02#8 (zext64 st) (byteTo64 by_) 0 0
  | .fnv1ad64 st by_ => requestOf 0x12#8 st (byteTo64 by_) 0 0
  | .crc32c st by_ => requestOf 0x03#8 (zext64 st) (byteTo64 by_) 0 0
  | .crc32cs st by_ => requestOf 0x04#8 (zext64 st) (byteTo64 by_) 0 0
  | .hint32I32 v sd => requestOf 0x05#8 (zext64 v) (zext64 sd) 0 0
  | .hint32I64 v sd => requestOf 0x25#8 v (zext64 sd) 0 0
  | .hint64 v sd => requestOf 0x35#8 v sd 0 0
  | .combp32 a b p => requestOf 0x06#8 (zext64 a) (zext64 b) (zext64 p) 0
  | .combp64 a b p => requestOf 0x16#8 a b p 0
  | .comb32 a b => requestOf 0x07#8 (zext64 a) (zext64 b) 0 0
  | .comb64 a b => requestOf 0x17#8 a b 0 0
  | .smix32 sd h t m => requestOf 0x08#8 (zext64 sd) (zext64 h) t m
  | .smix64 sd h t m => requestOf 0x18#8 sd h t m
  | .smixd32 sd h t => requestOf 0x09#8 (zext64 sd) (zext64 h) t 0
  | .smixd64 sd h t => requestOf 0x19#8 sd h t 0

/-- The packed request of an instruction (R70, R82). -/
def encodePacked (i : Instr) : BitVec 264 := (encode i).toPacked

/-- The instruction the decoder reads from a request whose low `nbits` bits are `w` and whose other bits are 0, bit 0
the least significant bit of `CMD` (R70, log entry 15). -/
def decodeTableWord (nbits w : Nat) : Option Instr :=
  match decode (Request.ofNumber (w % 2 ^ nbits)) with
  | .ok i => some i
  | .error _ => none

end Sys2Proof
end

