-- ==== Sys2Proof/Machine/State.lean ====
section
/-! DEFINITION. The state of the unit: the capability cache, which is all the state the spec gives it
(spec/10_state.md R33, R34), and the request and response interface of spec/20_memory.md R57, spec/60_exceptions.md R240
and spec/70_reset_and_hazards.md R260, R263, held as plain data because a step has no other input or output (log entry
1). There are no registers, no program counter, no flags and no memory (R31, R32, R35, R36, R38, R50). -/

namespace Sys2Proof.Machine

/-- A request and who issued it. The unit does not tell requesters apart (R240); the number only routes the answer
(log entry 2). -/
structure Issued where
  requester : Nat
  req : Request
deriving DecidableEq, Repr

/-- An outstanding request, and how many others may still be served before it: the fairness that
spec/70_reset_and_hazards.md R268 has a model assume, as a number (log entry 21). -/
structure Waiting where
  issued : Issued
  patience : Nat
deriving DecidableEq, Repr

/-- A response and the request it answers. -/
structure Answer where
  issued : Issued
  rsp : Response
deriving DecidableEq, Repr

/-- The state of the unit and of its interface. -/
structure State where
  /-- `CAP_VALID`: the probe has run (R33). -/
  capValid : Bool
  /-- `CAP_HW`: the probe's answer, meaningful while `capValid` (R34). -/
  capHw : Bool
  /-- Requests issued and not yet answered, in issue order (R57, R260). -/
  pending : List Waiting
  /-- `REQ`, the request being executed (spec/00_scope.md R24). -/
  serving : Issued
  /-- `RSP` of every request answered so far, oldest first (R71); no step reads it (R37). -/
  answers : List Answer
  /-- The reset input is asserted (R260). -/
  resetLine : Bool
  /-- The model's own: how many free values have been drawn (log entry 6). -/
  draws : Nat
deriving DecidableEq, Repr

/-- The requests issued and not yet answered, in issue order (R57, R260). -/
def State.outstanding (s : State) : List Issued := s.pending.map Waiting.issued

/-- Why a host's listing stops. The unit itself never faults: a legal request never errs (R230) and a reserved command
is answered and passed over (R231). -/
inductive Fault where
  /-- Raised by `runListing`: the line uses the `R` of a response whose `ERR` is 1, a host error without defined
  behaviour (spec/30_encoding.md R82). Safe: the listing stops where the spec defines nothing. -/
  | errResultUsed (line : Nat)
  /-- Raised by `runListing`: the host waits for the response of a request that reset dropped
  (spec/70_reset_and_hazards.md R260, spec/93_implementation_defined.md I14). Safe: there is no such response. -/
  | responseNeverComes (line : Nat)
deriving DecidableEq, Repr

/-- What the model does not run. -/
inductive Refusal where
  /-- Raised by no arm of `exec`: every instruction has its meaning. -/
  | notModelled (mnemonic : String)
  /-- Raised by `runListing`: the line is no line of R82 (it names a later line, or gives another number of operands than
  its operation reads). Safe: the spec gives such a line no meaning. -/
  | illFormedLine (line : Nat)
deriving DecidableEq, Repr

/-- The request register before any request is served (DESIGN CHOICE, log entry 10). -/
def Issued.idle : Issued := ⟨0, ⟨0#8, 0#64, 0#64, 0#64, 0#64⟩⟩

/-- The state right after reset (spec/70_reset_and_hazards.md R261): the probe has not run, `CAP_HW` is a free value
(log entry 5), no request is outstanding. -/
def State.reset : State where
  capValid := false
  capHw := Config.capHwAfterReset 0
  pending := []
  serving := Issued.idle
  answers := []
  resetLine := false
  draws := 1

end Sys2Proof.Machine
end

