-- ==== Sys2Proof/Machine/Flags.lean ====
section
/-! DEFINITION. The unit has no flags (spec/10_state.md R35). The one status bit there is belongs to a response: `ERR`
(spec/30_encoding.md R71, spec/60_exceptions.md R231). This file says how a response and its bit are formed. -/

namespace Sys2Proof.Machine

/-- The response to a legal request of width 64: `R` is the result, `ERR = 0` (R71). -/
def okResponse64 (v : Word64) : Response := ⟨v, false⟩

/-- The response to a legal request of width 32: the result in `R[31:0]`, `R[63:32] = 0`, `ERR = 0` (R71). -/
def okResponse32 (v : Word32) : Response := ⟨zext64 v, false⟩

/-- The response to a reserved command: `ERR = 1`, `R` the free value of the draw's number (R231, log entry 4). -/
def errResponse (draw : Nat) : Response := ⟨Config.unspecifiedResult draw, true⟩

end Sys2Proof.Machine
end

