-- ==== Sys2Proof/Machine/Ops.lean ====
section
/-! DEFINITION. The named operations over the state: answering a request, the answer to a reserved command (the one
abnormal outcome there is, spec/60_exceptions.md R231; there is no trap to take and none to return from, R233, R235),
the capability probe, reset, the choice of the next request, and what a host may do. Also `FMIX64`, which two families
share. -/

namespace Sys2Proof.Machine

/-- Give the request being executed its response (R71): `RSP <- p`. -/
def deliver (p : Response) (s : State) : State :=
  { s with answers := s.answers ++ [⟨s.serving, p⟩] }

/-- End a legal request of width 64 with its result (R71, R230). -/
def answer64 (v : Word64) (s : State) : Host.Outcome State Fault Refusal :=
  .next (deliver (okResponse64 v) s)

/-- End a legal request of width 32 with its result (R71, R230). -/
def answer32 (v : Word32) (s : State) : Host.Outcome State Fault Refusal :=
  .next (deliver (okResponse32 v) s)

/-- Answer a reserved command: `ERR = 1`, `R` unspecified, no state written; the unit goes on (R231, log entry 3). -/
def answerReserved (s : State) : State :=
  { deliver (errResponse s.draws) s with draws := s.draws + 1 }

/-- The lazy capability probe: run once, by the first `CRC32C` request that finds `CAP_VALID = 0`
(spec/41_primitive_mixers.md R109, R111). -/
def probe (s : State) : State :=
  if s.capValid then s else { s with capHw := Config.params.hwCrcPresent, capValid := true }

/-- Reset (spec/70_reset_and_hazards.md R260, R261): the cache is as after power-on, outstanding requests are dropped.
The responses already given are the hosts' (log entry 8). -/
def performReset (s : State) : State where
  capValid := false
  capHw := Config.capHwAfterReset s.draws
  pending := []
  serving := Issued.idle
  answers := s.answers
  resetLine := false
  draws := s.draws + 1

/-- The requester served next, of the outstanding requests `p :: rest`. With one request there is no choice. With more,
the first whose patience is at an end has its requester served (R268, log entry 21); while there is none, a free value
picks (R240, log entry 7). -/
def chosenRequester (draw : Nat) (p : Waiting) : List Waiting → Nat
  | [] => p.issued.requester
  | q :: rest =>
    match (p :: q :: rest).find? (fun x => x.patience == 0) with
    | some x => x.issued.requester
    | none => ((p :: q :: rest).getD (Config.arbiter draw % (rest.length + 2)) p).issued.requester

/-- The oldest request of requester `r` among `p :: rest`, and the others in their order (R57). -/
def takeOldest (r : Nat) (p : Waiting) : List Waiting → Waiting × List Waiting
  | [] => (p, [])
  | q :: rest =>
    if p.issued.requester = r then (p, q :: rest)
    else ((takeOldest r q rest).1, p :: (takeOldest r q rest).2)

/-- Another request is served before these: each has one less to wait for (log entry 21). -/
def passOver (ws : List Waiting) : List Waiting := ws.map (fun x => { x with patience := x.patience - 1 })

/-- The number of the next draw once the arbiter has chosen among `p :: rest`. -/
def drawsAfterChoice (draws : Nat) : List Waiting → Nat
  | [] => draws
  | _ :: _ => draws + 1

/-- Take the next request to execute, if one is outstanding (R57, R240, R268). -/
def select (s : State) : Option State :=
  match s.pending with
  | [] => none
  | p :: rest =>
    let taken := takeOldest (chosenRequester s.draws p rest) p rest
    some { s with pending := passOver taken.2, serving := taken.1.issued, draws := drawsAfterChoice s.draws rest }

/-- The host interface: a requester issues a request (spec/70_reset_and_hazards.md R263). Its patience is a free value (log
entry 21). -/
def State.issue (requester : Nat) (q : Request) (s : State) : State :=
  { s with pending := s.pending ++ [⟨⟨requester, q⟩, Config.patience s.draws⟩], draws := s.draws + 1 }

/-- The host interface: the platform asserts reset (R260). -/
def State.assertReset (s : State) : State := { s with resetLine := true }

/-- `x ^= x >> k`, the step the finalizers and mixes are made of (R22). -/
def xorShiftRight {n : Nat} (k : Nat) (x : BitVec n) : BitVec n := x ^^^ (x >>> k)

/-- `FMIX64` (spec/00_scope.md R23). -/
def fmix64 (x c1 c2 : Word64) : Word64 :=
  let x2 := xorShiftRight 33 x * c1
  let x4 := xorShiftRight 33 x2 * c2
  xorShiftRight 33 x4

end Sys2Proof.Machine
end

