-- ==== Sys2Proof/Machine/Combine.lean ====
section
/-! DEFINITION. Hash combine, spec/43_combine.md: the explicit-prime form (R151, R152) and the default form, which at
64 bits is followed by the finalizer (R153 to R155). The open constants are arguments; the instructions pass those of
`Config.params`. -/

namespace Sys2Proof.Machine

/-- The explicit-prime combine at 32 bits; the prime is a 32-bit operand here (R151). -/
def combinePrime32 (a b prime : Word32) : Word32 := (a ^^^ b) * prime

/-- The explicit-prime combine at 64 bits (R152). -/
def combinePrime64 (a b prime : Word64) : Word64 := (a ^^^ b) * prime

/-- `BOOST_STEP_W` with the additive constant given (R153). -/
def boostStep {n : Nat} (golden a b : BitVec n) : BitVec n := a ^^^ (b + golden + (a <<< 6) + (a >>> 2))

/-- The default combine at 32 bits: no finalizer (R154). -/
def combine32 (p : Params) (a b : Word32) : Word32 := boostStep p.goldenRatio32 a b

/-- The default combine at 64 bits (R155). -/
def combine64 (p : Params) (a b : Word64) : Word64 :=
  fmix64 (boostStep p.goldenRatio64 a b) p.combC1 p.combC2

/-- `COMBP.32` (R151). -/
def execCombp32 (existing new prime : Word32) (s : State) : Host.Outcome State Fault Refusal :=
  answer32 (combinePrime32 existing new prime) s

/-- `COMBP.64` (R152). -/
def execCombp64 (existing new prime : Word64) (s : State) : Host.Outcome State Fault Refusal :=
  answer64 (combinePrime64 existing new prime) s

/-- `COMB.32` (R154). -/
def execComb32 (existing new : Word32) (s : State) : Host.Outcome State Fault Refusal :=
  answer32 (combine32 Config.params existing new) s

/-- `COMB.64` (R155). -/
def execComb64 (existing new : Word64) (s : State) : Host.Outcome State Fault Refusal :=
  answer64 (combine64 Config.params existing new) s

end Sys2Proof.Machine
end

