-- ==== Sys2Proof/Machine/IntegerHash.lean ====
section
/-! DEFINITION. The integer hash, spec/42_integer_hash.md: the zero test on the value as presented (R137), then the XOR
with the seed, then the mixing (R130). -/

namespace Sys2Proof.Machine

/-- `KNUTH_MIX32` (R132). -/
def knuthMix32 (x0 : Word32) : Word32 :=
  let x1 := xorShiftRight 16 x0 * knuthMultiplier32
  let x2 := xorShiftRight 16 x1 * knuthMultiplier32
  xorShiftRight 16 x2

/-- `WANG_MIX64` (R133). -/
def wangMix64 (x0 : Word64) : Word64 :=
  let x1 := xorShiftRight 30 x0 * wangC1
  let x2 := xorShiftRight 27 x1 * wangC2
  xorShiftRight 31 x2

/-- The high and low halves of a 64-bit value folded together by XOR (R135). -/
def foldHalves (t : Word64) : Word32 := t.extractLsb' 32 32 ^^^ t.extractLsb' 0 32

/-- The integer hash of a 32-bit input to 32 bits (R134). -/
def hashInt32 (value seed : Word32) : Word32 :=
  if value = 0#32 then 0#32 else knuthMix32 (value ^^^ seed)

/-- The integer hash of a 64-bit input folded to 32 bits; the seed is zero-extended (R135, R131). -/
def hashInt32From64 (value : Word64) (seed : Word32) : Word32 :=
  if value = 0#64 then 0#32 else knuthMix32 (foldHalves (value ^^^ zext64 seed))

/-- The integer hash to 64 bits (R136). -/
def hashInt64 (value seed : Word64) : Word64 :=
  if value = 0#64 then 0#64 else wangMix64 (value ^^^ seed)

/-- `HINT.32.I32` (R134). -/
def execHint32I32 (value seed : Word32) (s : State) : Host.Outcome State Fault Refusal :=
  answer32 (hashInt32 value seed) s

/-- `HINT.32.I64` (R135). -/
def execHint32I64 (value : Word64) (seed : Word32) (s : State) : Host.Outcome State Fault Refusal :=
  answer32 (hashInt32From64 value seed) s

/-- `HINT.64` (R136). -/
def execHint64 (value seed : Word64) (s : State) : Host.Outcome State Fault Refusal :=
  answer64 (hashInt64 value seed) s

end Sys2Proof.Machine
end

