-- ==== Sys2Proof/Machine/Mixers.lean ====
section
/-! DEFINITION. The primitive mixers, spec/41_primitive_mixers.md: each is one step from a state and a byte to a state
(R100). For each operation, the value it computes and its meaning as an instruction. -/

namespace Sys2Proof.Machine

/-- The Larson step at 32 bits (R101, multiplier R10). -/
def larsonStep32 (st : Word32) (byte : Byte) : Word32 := 37#32 * st + byteTo32 byte

/-- The Larson step at 64 bits (R102, multiplier R10). -/
def larsonStep64 (st : Word64) (byte : Byte) : Word64 := 37#64 * st + byteTo64 byte

/-- The FNV-1a step at 32 bits with a 64-bit prime: XOR first (R113), product at 64 bits, low half kept (R103). -/
def fnv1aStep32 (st : Word32) (byte : Byte) (prime : Word64) : Word32 :=
  trunc32 (zext64 (st ^^^ byteTo32 byte) * prime)

/-- The FNV-1a step at 64 bits (R104). -/
def fnv1aStep64 (st : Word64) (byte : Byte) (prime : Word64) : Word64 := (st ^^^ byteTo64 byte) * prime

/-- The FNV-1a step at 32 bits with the default prime (R105). -/
def fnv1adStep32 (st : Word32) (byte : Byte) : Word32 := (st ^^^ byteTo32 byte) * fnvPrime32

/-- The FNV-1a step at 64 bits with the default prime (R106). -/
def fnv1adStep64 (st : Word64) (byte : Byte) : Word64 := (st ^^^ byteTo64 byte) * fnvPrime64

/-- One round of the CRC32-C step: the bit tested is bit 0 before the shift (R107). -/
def crcRound (s : Word32) : Word32 := (s >>> 1) ^^^ (if s.getLsbD 0 then crc32cPolyReflected else 0#32)

/-- `n` rounds. -/
def crcRounds : Nat → Word32 → Word32
  | 0, s => s
  | n + 1, s => crcRounds n (crcRound s)

/-- `CRC32C_STEP`: the byte is XORed in, then exactly 8 rounds; no inversion before or after (R107). -/
def crc32cStep (st : Word32) (byte : Byte) : Word32 := crcRounds 8 (st ^^^ byteTo32 byte)

/-- `CRC32C_HW`: the hardware circuit, which the spec fixes by the equation of R110 alone and has a model define by
`CRC32C_STEP` (R110 b, log entry 11). -/
def crc32cHw (st : Word32) (byte : Byte) : Word32 := crc32cStep st byte

/-- The CRC32-C step by the path the cache selects (R109). -/
def crc32cSelected (hw : Bool) (st : Word32) (byte : Byte) : Word32 :=
  if hw then crc32cHw st byte else crc32cStep st byte

/-- `LARSON.32` (R101). -/
def execLarson32 (st : Word32) (byte : Byte) (s : State) : Host.Outcome State Fault Refusal :=
  answer32 (larsonStep32 st byte) s

/-- `LARSON.64` (R102). -/
def execLarson64 (st : Word64) (byte : Byte) (s : State) : Host.Outcome State Fault Refusal :=
  answer64 (larsonStep64 st byte) s

/-- `FNV1A.32` (R103). -/
def execFnv1a32 (st : Word32) (byte : Byte) (prime : Word64) (s : State) : Host.Outcome State Fault Refusal :=
  answer32 (fnv1aStep32 st byte prime) s

/-- `FNV1A.64` (R104). -/
def execFnv1a64 (st : Word64) (byte : Byte) (prime : Word64) (s : State) : Host.Outcome State Fault Refusal :=
  answer64 (fnv1aStep64 st byte prime) s

/-- `FNV1AD.32` (R105). -/
def execFnv1ad32 (st : Word32) (byte : Byte) (s : State) : Host.Outcome State Fault Refusal :=
  answer32 (fnv1adStep32 st byte) s

/-- `FNV1AD.64` (R106). -/
def execFnv1ad64 (st : Word64) (byte : Byte) (s : State) : Host.Outcome State Fault Refusal :=
  answer64 (fnv1adStep64 st byte) s

/-- `CRC32C`: the lazy probe, then the step by the path `CAP_HW` selects as it stands after the probe (R109, R111). -/
def execCrc32c (st : Word32) (byte : Byte) (s : State) : Host.Outcome State Fault Refusal :=
  answer32 (crc32cSelected (probe s).capHw st byte) (probe s)

/-- `CRC32CS`: the software path; the cache is neither read nor written (R108). -/
def execCrc32cs (st : Word32) (byte : Byte) (s : State) : Host.Outcome State Fault Refusal :=
  answer32 (crc32cStep st byte) s

end Sys2Proof.Machine
end

