-- ==== Sys2Proof/Machine/SeedMix.lean ====
section
/-! DEFINITION. Seed mixing, spec/44_seedmix.md: the sum at width W, the mix, the product and the mask at 64 bits, the
result truncated to W (R170). The table size is not checked (R171); `tableSize - 1` wraps (R170). -/

namespace Sys2Proof.Machine

/-- The product and the mask, at 64 bits whatever the width (R170). -/
def maskedProduct (y mixConstant tableSize : Word64) : Word64 := (y * mixConstant) &&& (tableSize - 1#64)

/-- The seed mix at 32 bits (R172). -/
def seedMix32 (p : Params) (seed hash : Word32) (tableSize mixConstant : Word64) : Word32 :=
  trunc32 (maskedProduct (zext64 (p.wmix32 (seed + hash))) mixConstant tableSize)

/-- The seed mix at 64 bits (R173). -/
def seedMix64 (p : Params) (seed hash tableSize mixConstant : Word64) : Word64 :=
  maskedProduct (fmix64 (seed + hash) p.smixC1 p.smixC2) mixConstant tableSize

/-- `SMIX.32` (R172). -/
def execSmix32 (seed hash : Word32) (tableSize mixConstant : Word64) (s : State) : Host.Outcome State Fault Refusal :=
  answer32 (seedMix32 Config.params seed hash tableSize mixConstant) s

/-- `SMIX.64` (R173). -/
def execSmix64 (seed hash tableSize mixConstant : Word64) (s : State) : Host.Outcome State Fault Refusal :=
  answer64 (seedMix64 Config.params seed hash tableSize mixConstant) s

/-- `SMIXD.32` (R174). -/
def execSmixd32 (seed hash : Word32) (tableSize : Word64) (s : State) : Host.Outcome State Fault Refusal :=
  answer32 (seedMix32 Config.params seed hash tableSize Config.params.mixConstantDefault) s

/-- `SMIXD.64` (R175). -/
def execSmixd64 (seed hash tableSize : Word64) (s : State) : Host.Outcome State Fault Refusal :=
  answer64 (seedMix64 Config.params seed hash tableSize Config.params.mixConstantDefault) s

end Sys2Proof.Machine
end

