-- ==== Sys2Proof/Machine/Dispatch.lean ====
section
/-! DEFINITION. One arm per instruction (spec/30_encoding.md R78). -/

namespace Sys2Proof.Machine

def exec (i : Instr) (s : State) : Host.Outcome State Fault Refusal :=
  match i with
  | .larson32 st byte => Sys2Proof.Machine.execLarson32 st byte s
  | .larson64 st byte => Sys2Proof.Machine.execLarson64 st byte s
  | .fnv1a32 st byte prime => Sys2Proof.Machine.execFnv1a32 st byte prime s
  | .fnv1a64 st byte prime => Sys2Proof.Machine.execFnv1a64 st byte prime s
  | .fnv1ad32 st byte => Sys2Proof.Machine.execFnv1ad32 st byte s
  | .fnv1ad64 st byte => Sys2Proof.Machine.execFnv1ad64 st byte s
  | .crc32c st byte => Sys2Proof.Machine.execCrc32c st byte s
  | .crc32cs st byte => Sys2Proof.Machine.execCrc32cs st byte s
  | .hint32I32 value seed => Sys2Proof.Machine.execHint32I32 value seed s
  | .hint32I64 value seed => Sys2Proof.Machine.execHint32I64 value seed s
  | .hint64 value seed => Sys2Proof.Machine.execHint64 value seed s
  | .combp32 existing new prime => Sys2Proof.Machine.execCombp32 existing new prime s
  | .combp64 existing new prime => Sys2Proof.Machine.execCombp64 existing new prime s
  | .comb32 existing new => Sys2Proof.Machine.execComb32 existing new s
  | .comb64 existing new => Sys2Proof.Machine.execComb64 existing new s
  | .smix32 seed hash tableSize mixConstant => Sys2Proof.Machine.execSmix32 seed hash tableSize mixConstant s
  | .smix64 seed hash tableSize mixConstant => Sys2Proof.Machine.execSmix64 seed hash tableSize mixConstant s
  | .smixd32 seed hash tableSize => Sys2Proof.Machine.execSmixd32 seed hash tableSize s
  | .smixd64 seed hash tableSize => Sys2Proof.Machine.execSmixd64 seed hash tableSize s

end Sys2Proof.Machine
end

