-- ==== Sys2Proof/Machine/Step.lean ====
section
/-! DEFINITION. One step of the unit (spec/10_state.md R30): reset if it is asserted (R260), else the next outstanding
request is taken, decoded and executed; a reserved command is answered with `ERR = 1` (R231); with nothing outstanding
the unit waits unchanged (log entry 1). -/

namespace Sys2Proof.Machine

/-- Execute the request that has been taken (R30). -/
def serve (s : State) : Host.Outcome State Fault Refusal :=
  match decode s.serving.req with
  | .ok i => exec i s
  | .error _ => .next (answerReserved s)

/-- One step. -/
def step (s : State) : Host.Outcome State Fault Refusal :=
  if s.resetLine then .next (performReset s)
  else match select s with
    | none => .next s
    | some t => serve t

/-- `s` with the request whose low `nbits` bits are `w`, the rest 0, as the one outstanding request, so that the next
step executes it (log entry 1): it stands for a host issuing it. -/
def State.withFetchWord (s : State) (nbits w : Nat) : State :=
  { s with pending := [⟨⟨0, Request.ofNumber (w % 2 ^ nbits)⟩, 0⟩], resetLine := false }

end Sys2Proof.Machine
end

