-- ==== Sys2Proof/Machine/Listing.lean ====
section
/-! DEFINITION. The host's side: listings, spec/30_encoding.md R82, and the pseudo-op `FOLD`, R83. A listing is
straight-line; the host forms each request from the responses it already has (spec/70_reset_and_hazards.md R265), issues
it and waits for its response (log entry 16). -/

namespace Sys2Proof.Machine

/-- A host expression (R82): a literal, the `R` or the `ERR` of an earlier line, or the operators of
spec/00_scope.md R22 over these. Its value is an unsigned number. -/
inductive HostExpr where
  | lit (n : Nat)
  | result (line : Nat)
  | errBit (line : Nat)
  | xor (x y : HostExpr)
  | and (x y : HostExpr)
  | or (x y : HostExpr)
  | add (w : Nat) (x y : HostExpr)
  | sub (w : Nat) (x y : HostExpr)
  | mul (w : Nat) (x y : HostExpr)
  | shiftRight (k : Nat) (x : HostExpr)
  | shiftLeft (w k : Nat) (x : HostExpr)
  | trunc (n : Nat) (x : HostExpr)
  | slice (hi lo : Nat) (x : HostExpr)
  | ifEq (x y whenEq otherwise : HostExpr)
deriving DecidableEq, Repr

/-- Every line the expression names stands before line `n` (R82). -/
def namesEarlier (n : Nat) : HostExpr → Bool
  | .lit _ => true
  | .result k => k < n
  | .errBit k => k < n
  | .xor x y => namesEarlier n x && namesEarlier n y
  | .and x y => namesEarlier n x && namesEarlier n y
  | .or x y => namesEarlier n x && namesEarlier n y
  | .add _ x y => namesEarlier n x && namesEarlier n y
  | .sub _ x y => namesEarlier n x && namesEarlier n y
  | .mul _ x y => namesEarlier n x && namesEarlier n y
  | .shiftRight _ x => namesEarlier n x
  | .shiftLeft _ _ x => namesEarlier n x
  | .trunc _ x => namesEarlier n x
  | .slice _ _ x => namesEarlier n x
  | .ifEq x y t e => namesEarlier n x && namesEarlier n y && namesEarlier n t && namesEarlier n e

/-- The value of a host expression over the responses of the earlier lines. There is none when it uses the `R` of a
response whose `ERR` is 1 (R82). -/
def evalHost (env : List Response) : HostExpr → Option Nat
  | .lit n => some n
  | .result k => match env[k]? with
    | some p => if p.err then none else some p.r.toNat
    | none => none
  | .errBit k => match env[k]? with
    | some p => some p.err.toNat
    | none => none
  | .xor x y => (evalHost env x).bind fun u => (evalHost env y).map fun v => u ^^^ v
  | .and x y => (evalHost env x).bind fun u => (evalHost env y).map fun v => u &&& v
  | .or x y => (evalHost env x).bind fun u => (evalHost env y).map fun v => u ||| v
  | .add w x y => (evalHost env x).bind fun u => (evalHost env y).map fun v => (u + v) % 2 ^ w
  | .sub w x y => (evalHost env x).bind fun u => (evalHost env y).map fun v => (u + (2 ^ w - v % 2 ^ w)) % 2 ^ w
  | .mul w x y => (evalHost env x).bind fun u => (evalHost env y).map fun v => (u * v) % 2 ^ w
  | .shiftRight k x => (evalHost env x).map fun u => u / 2 ^ k
  | .shiftLeft w k x => (evalHost env x).map fun u => (u * 2 ^ k) % 2 ^ w
  | .trunc n x => (evalHost env x).map fun u => u % 2 ^ n
  | .slice hi lo x => (evalHost env x).map fun u => (u / 2 ^ lo) % 2 ^ (hi + 1 - lo)
  | .ifEq x y t e => (evalHost env x).bind fun u => (evalHost env y).bind fun v =>
      if u = v then evalHost env t else evalHost env e

/-- The values of a line's operands, in port order. -/
def evalOperands (env : List Response) : List HostExpr → Option (List Nat)
  | [] => some []
  | x :: xs => (evalHost env x).bind fun v => (evalOperands env xs).map fun vs => v :: vs

/-- One line of a listing: a command byte, a legal one for a mnemonic, and the operands in port order (R82). -/
structure Line where
  cmd : BitVec 8
  operands : List HostExpr
deriving DecidableEq, Repr

/-- Line `n` is a line of R82: it names earlier lines only and has exactly as many operands as its operation reads. (A
raw reserved command byte, as in program P6 of spec/95_test_vectors.md, has at most the four ports.) -/
def lineWellFormed (n : Nat) (l : Line) : Bool :=
  l.operands.all (namesEarlier n) &&
    match rowOf l.cmd with
    | some row => l.operands.length == row.ports
    | none => l.operands.length <= 4

/-- The request of a line: a value wider than its port is truncated, ports not named are 0 (R82). -/
def lineRequest (cmd : BitVec 8) (values : List Nat) : Request :=
  requestOf cmd (BitVec.ofNat 64 (values.getD 0 0)) (BitVec.ofNat 64 (values.getD 1 0))
    (BitVec.ofNat 64 (values.getD 2 0)) (BitVec.ofNat 64 (values.getD 3 0))

/-- The answers a requester has received, oldest first (R57). -/
def answersTo (r : Nat) (s : State) : List Answer := s.answers.filter (fun a => a.issued.requester == r)

/-- The requests a requester is waiting for, oldest first. -/
def outstandingOf (r : Nat) (s : State) : List Issued := s.outstanding.filter (fun p => p.requester == r)

/-- Let the unit run, at most `fuel` steps, until requester `r` has its answer number `k`. -/
def awaitAnswer (r k : Nat) : Nat → State → Option (State × Response)
  | 0, s => (answersTo r s)[k]?.map fun a => (s, a.rsp)
  | fuel + 1, s =>
    match (answersTo r s)[k]? with
    | some a => some (s, a.rsp)
    | none => match step s with
      | .next t => awaitAnswer r k fuel t
      | .fault _ => none
      | .refused _ => none

/-- Requester `r` issues a request and waits for its response: none when a reset drops the request. Every step answers
one outstanding request, so as many steps as are outstanding suffice. -/
def ask (r : Nat) (q : Request) (s : State) : Option (State × Response) :=
  awaitAnswer r ((answersTo r s).length + (outstandingOf r s).length) (s.pending.length + 1) (s.issue r q)

/-- The hosts issue requests, first to last. -/
def issueAll (news : List (Nat × Request)) (s : State) : State := news.foldl (fun t n => t.issue n.1 n.2) s

/-- Turn after turn, the hosts issue requests and the unit makes one step: a run in which requests keep coming, from any
requester (R263, R268). -/
def runTurns : List (List (Nat × Request)) → State → Host.Outcome State Fault Refusal
  | [], s => .next s
  | news :: turns, s =>
    match step (issueAll news s) with
    | .next t => runTurns turns t
    | .fault f => .fault f
    | .refused r => .refused r

/-- Run a listing for requester `r`, `env` being the responses of the lines before it. -/
def runListing (r : Nat) : List Response → List Line → State → Host.Outcome (State × List Response) Fault Refusal
  | env, [], s => .next (s, env)
  | env, l :: ls, s =>
    if lineWellFormed env.length l then
      match evalOperands env l.operands with
      | none => .fault (.errResultUsed env.length)
      | some values => match ask r (lineRequest l.cmd values) s with
        | none => .fault (.responseNeverComes env.length)
        | some (t, p) => runListing r (env ++ [p]) ls t
    else .refused (.illFormedLine env.length)

/-- `FOLD` (R83): one request per byte, each fed the result of the one before; `extra` is repeated on port `C` on, and
the first line stands at `first`. -/
def foldLines (cmd : BitVec 8) (extra : List HostExpr) : HostExpr → Nat → List Byte → List Line
  | _, _, [] => []
  | start, first, b :: bs =>
    ⟨cmd, start :: .lit b.toNat :: extra⟩ :: foldLines cmd extra (.result first) (first + 1) bs

/-- What the name of a `FOLD` stands for: its last line, or the start value when there is no byte (R83). -/
def foldName (start : HostExpr) (first : Nat) : List Byte → HostExpr
  | [] => start
  | _ :: bs => .result (first + bs.length)

end Sys2Proof.Machine
end

