-- ==== Sys2Proof/Machine/Result.lean ====
section
/-! DEFINITION. The result of a legal request as a function of the request and the parameters alone
(spec/10_state.md R30, spec/20_memory.md R56 a): one line per row of spec/30_encoding.md R78, 32-bit results
zero-extended (R71). The instructions' meanings do not use it; statements compare them with it. -/

namespace Sys2Proof.Machine

/-- `RSP.R` of a legal request (R30, R71). -/
def resultOf (p : Params) : Instr → Word64
  | .larson32 st byte => zext64 (larsonStep32 st byte)
  | .larson64 st byte => larsonStep64 st byte
  | .fnv1a32 st byte prime => zext64 (fnv1aStep32 st byte prime)
  | .fnv1a64 st byte prime => fnv1aStep64 st byte prime
  | .fnv1ad32 st byte => zext64 (fnv1adStep32 st byte)
  | .fnv1ad64 st byte => fnv1adStep64 st byte
  | .crc32c st byte => zext64 (crc32cStep st byte)
  | .crc32cs st byte => zext64 (crc32cStep st byte)
  | .hint32I32 value seed => zext64 (hashInt32 value seed)
  | .hint32I64 value seed => zext64 (hashInt32From64 value seed)
  | .hint64 value seed => hashInt64 value seed
  | .combp32 existing new prime => zext64 (combinePrime32 existing new prime)
  | .combp64 existing new prime => combinePrime64 existing new prime
  | .comb32 existing new => zext64 (combine32 p existing new)
  | .comb64 existing new => combine64 p existing new
  | .smix32 seed hash tableSize mixConstant => zext64 (seedMix32 p seed hash tableSize mixConstant)
  | .smix64 seed hash tableSize mixConstant => seedMix64 p seed hash tableSize mixConstant
  | .smixd32 seed hash tableSize => zext64 (seedMix32 p seed hash tableSize p.mixConstantDefault)
  | .smixd64 seed hash tableSize => seedMix64 p seed hash tableSize p.mixConstantDefault

end Sys2Proof.Machine
end

