-- ==== Sys2Proof/Machine/SoftwareLayer.lean ====
section
/-! DEFINITION. The software above the unit, spec/45_host_compositions.md: the float hash, the string hash, the generic
value hasher and the entry point, each a composition of the unit's operations. It is outside the hardware (spec/00_scope.md
R6 a, R190), no step uses it, and its open details are the fields of `SoftParams` (log entry 17). -/

namespace Sys2Proof.Machine

/-- The 32-bit string hash: 0 for no byte, else `FOLD CRC32C` from the seed, first byte first (R194, R195). -/
def hashBytes32 (seed : Word32) (bytes : List Byte) : Word32 :=
  match bytes with
  | [] => 0#32
  | b :: bs => (b :: bs).foldl crc32cStep seed

/-- The 64-bit string hash: a low stream over the bytes and a high stream over the bytes XOR 0xFF, seeded with the low
and the high half of the seed (R194, R196; the mask is R13). -/
def hashBytes64 (seed : Word64) (bytes : List Byte) : Word64 :=
  match bytes with
  | [] => 0#64
  | b :: bs =>
    let low := (b :: bs).foldl crc32cStep (seed.extractLsb' 0 32)
    let high := ((b :: bs).map (fun x => x ^^^ 0xFF#8)).foldl crc32cStep (seed.extractLsb' 32 32)
    (zext64 high <<< 32) ||| zext64 low

/-- The string hash at the width wanted (R199). -/
def hashBytes : (w : Width) → BitVec w.bits → List Byte → BitVec w.bits
  | .w32, seed, bytes => hashBytes32 seed bytes
  | .w64, seed, bytes => hashBytes64 seed bytes

/-- The two-argument combine at the width wanted: the default form (R198). -/
def combineAt (p : Params) : (w : Width) → BitVec w.bits → BitVec w.bits → BitVec w.bits
  | .w32, a, b => combine32 p a b
  | .w64, a, b => combine64 p a b

/-- The integer hash of an unsigned number of `n` bits, through the `HINT` operation that fits (R191, R202). -/
def hashUnsigned : (w : Width) → BitVec w.bits → (n : Width) → BitVec n.bits → BitVec w.bits
  | .w32, seed, .w32, v => hashInt32 v seed
  | .w32, seed, .w64, v => hashInt32From64 v seed
  | .w64, seed, .w32, v => hashInt64 (zext64 v) seed
  | .w64, seed, .w64, v => hashInt64 v seed

/-- An integer of the host's software: its type's width, any from 1 to 64 bits (R200, spec/90_conflicts.md C4, R131),
whether the type is signed, and its bits. -/
structure IntValue where
  bits : Nat
  signed : Bool
  value : BitVec bits
  positive : 0 < bits := by decide
  atMost64 : bits ≤ 64 := by decide
deriving DecidableEq, Repr

/-- `WIDEN` (R131): to `n` bits, by sign or zero extension as the parameter says of the type's signedness; an integer
that has `n` bits stays as it is. -/
def widen (sp : SoftParams) (n : Nat) (v : IntValue) : BitVec n :=
  if sp.widenSignExtends v.signed then v.value.signExtend n else v.value.setWidth n

/-- An integer of 32 bits or fewer widened to 32, a wider one to 64 (R200). That one of 33 to 63 bits takes
`HINT.32.I64` is the model's choice: R200 names that operation for integers of 64 bits only (log entry 20). -/
def hashIntegral32 (sp : SoftParams) (seed : Word32) (v : IntValue) : Word32 :=
  if v.bits ≤ 32 then hashInt32 (widen sp 32 v) seed else hashInt32From64 (widen sp 64 v) seed

/-- Any integer widened to 64 bits (R200, R136). -/
def hashIntegral64 (sp : SoftParams) (seed : Word64) (v : IntValue) : Word64 := hashInt64 (widen sp 64 v) seed

/-- The integer rule of the dispatch table (R200). -/
def hashIntegral (sp : SoftParams) : (w : Width) → BitVec w.bits → IntValue → BitVec w.bits
  | .w32, seed, v => hashIntegral32 sp seed v
  | .w64, seed, v => hashIntegral64 sp seed v

/-- The normal form of a `float` pattern: every zero is +0, every NaN is `CANON_NAN_32` (R192, R193, log entry 18). -/
def normalizeFloat (sp : SoftParams) (bits : Word32) : Word32 :=
  if bits.extractLsb' 0 31 = 0 then 0#32
  else if bits.extractLsb' 23 8 = 0xFF#8 ∧ bits.extractLsb' 0 23 ≠ 0 then sp.canonNan32
  else bits

/-- The normal form of a `double` pattern (R192, R193). -/
def normalizeDouble (sp : SoftParams) (bits : Word64) : Word64 :=
  if bits.extractLsb' 0 63 = 0 then 0#64
  else if bits.extractLsb' 52 11 = 0x7FF#11 ∧ bits.extractLsb' 0 52 ≠ 0 then sp.canonNan64
  else bits

/-- The float hash: normalise, then the integer hash of the pattern as an unsigned integer (R191, R201). -/
def hashFloat (sp : SoftParams) (w : Width) (seed : BitVec w.bits) (bits : Word32) : BitVec w.bits :=
  hashUnsigned w seed .w32 (normalizeFloat sp bits)

/-- The same for a `double` (R191, R201). -/
def hashDouble (sp : SoftParams) (w : Width) (seed : BitVec w.bits) (bits : Word64) : BitVec w.bits :=
  hashUnsigned w seed .w64 (normalizeDouble sp bits)

/-- A raw pointer's address, an unsigned integer of `PTR_WIDTH` bits, through the integer hash (R202); an unsigned value
is zero-extended where it meets 64 bits (R191). -/
def hashAddress (sp : SoftParams) (w : Width) (seed : BitVec w.bits) (address : Nat) : BitVec w.bits :=
  hashUnsigned w seed sp.ptrWidth (BitVec.ofNat sp.ptrWidth.bits address)

/-- A length or a variant's index as an integer of `LEN_WIDTH` bits (R209, R210). The spec gives its type no signedness:
the open parameter `lenSigned` stands for it (log entry 19). -/
def lengthValue (sp : SoftParams) (n : Nat) : IntValue where
  bits := sp.lenWidth.bits
  signed := sp.lenSigned
  value := BitVec.ofNat sp.lenWidth.bits n
  positive := by cases sp.lenWidth <;> decide
  atMost64 := by cases sp.lenWidth <;> decide

/-- A length or a variant's index through the integer rule, `WIDEN` included (R209, R210, R200): the model picks neither
zero nor sign extension (log entry 19). -/
def hashLength (sp : SoftParams) (w : Width) (seed : BitVec w.bits) (n : Nat) : BitVec w.bits :=
  hashIntegral sp w seed (lengthValue sp n)

/-- A value of the generic hasher: the thirteen shapes of the dispatch table, one constructor or, for optionals and
floats, two (R198 to R211). The shape is given, so that no later row can be taken for an earlier one (R198). -/
inductive Value where
  /-- Row 1, a string or a view of one, as its bytes (R199). -/
  | str (bytes : List Byte)
  /-- Row 2 (R200). -/
  | integral (v : IntValue)
  /-- Row 3, a float (R201). -/
  | float (bits : Word32)
  /-- Row 3, a double (R201). -/
  | double (bits : Word64)
  /-- Row 4, a raw pointer's address (R202). -/
  | pointer (address : Nat)
  /-- Row 5, by its underlying integer (R203). -/
  | enum (underlying : IntValue)
  /-- Row 6, an absent optional (R204). -/
  | absent
  /-- Row 6, a present optional (R204). -/
  | present (v : Value)
  /-- Row 7 (R205). -/
  | pair (a b : Value)
  /-- Row 8, elements in declared order (R206). -/
  | tuple (elems : List Value)
  /-- Row 9 (R207). -/
  | array (elems : List Value)
  /-- Row 10, the elements viewed, in order; the buffer and the offset play no part (R208). -/
  | slice (elems : List Value)
  /-- Row 11, a growable sequence (R209). -/
  | sequence (elems : List Value)
  /-- Row 12, a tagged union (R210). -/
  | variant (activeIndex : Nat) (v : Value)
  /-- Row 13, a value of an opaque type (R211). -/
  | opaqueValue (which : Nat)
deriving Repr

mutual

/-- The generic value hasher (R198 to R211). -/
def hashValue (p : Params) (sp : SoftParams) (w : Width) (seed : BitVec w.bits) : Value → BitVec w.bits
  | .str bytes => hashBytes w seed bytes
  | .integral v => hashIntegral sp w seed v
  | .float bits => hashFloat sp w seed bits
  | .double bits => hashDouble sp w seed bits
  | .pointer address => hashAddress sp w seed address
  | .enum underlying => hashIntegral sp w seed underlying
  | .absent => combineAt p w seed 0
  | .present v => combineAt p w (hashValue p sp w seed v) 1
  | .pair a b => combineAt p w (hashValue p sp w seed a) (hashValue p sp w seed b)
  | .tuple elems => foldValues p sp w seed seed elems
  | .array elems => foldValues p sp w seed seed elems
  | .slice elems => foldValues p sp w seed seed elems
  | .sequence elems =>
    foldValues p sp w seed (combineAt p w seed (hashLength sp w seed elems.length)) elems
  | .variant activeIndex v =>
    combineAt p w (hashLength sp w seed activeIndex) (hashValue p sp w seed v)
  | .opaqueValue which => sp.platformHash w which ^^^ seed

/-- The fold of the default combine over the elements' hashes, left to right from an accumulator (R198). -/
def foldValues (p : Params) (sp : SoftParams) (w : Width) (seed : BitVec w.bits) :
    BitVec w.bits → List Value → BitVec w.bits
  | acc, [] => acc
  | acc, v :: vs => foldValues p sp w seed (combineAt p w acc (hashValue p sp w seed v)) vs

end

/-- `fnv_offset_basis(Width)` (R19). -/
def offsetBasis (sp : SoftParams) : (w : Width) → BitVec w.bits
  | .w32 => sp.fnvOffsetBasis32
  | .w64 => sp.fnvOffsetBasis64

/-- The unified entry point `hash<T, Width, Seed>` with its defaults: output width 32, and the offset basis of the width as
the seed (R212); the functor form computes the same (R213). -/
def hashEntry (p : Params) (sp : SoftParams) (v : Value) (w : Width := .w32)
    (seed : BitVec w.bits := offsetBasis sp w) : BitVec w.bits :=
  hashValue p sp w seed v

end Sys2Proof.Machine
end

