-- ==== Sys2Proof/Safety.lean ====
section
/-! DEFINITION. What claims are stated in: a request answered, a right answer, a sound cache, a faulted run, the history
of a requester, states that differ in the cache alone. -/

namespace Sys2Proof

open Sys2Proof.Machine

/-- `s` after the request being executed has been answered `ERR = 0`, `R = r`: every other field as it was. -/
def answered (s : State) (r : Nat) : State :=
  { s with answers := s.answers ++ [⟨s.serving, ⟨BitVec.ofNat 64 r, false⟩⟩] }

/-- The response that a request's own bits call for: a legal one its result, a reserved one the error bit with any `R`
(spec/10_state.md R30, spec/60_exceptions.md R231). -/
abbrev RightAnswer (a : Answer) : Prop :=
  match decode a.issued.req with
  | .ok i => a.rsp = ⟨resultOf Config.params i, false⟩
  | .error _ => a.rsp.err = true

/-- The cache, if valid, holds the probe's answer (spec/10_state.md R34). -/
abbrev CacheSound (s : State) : Prop := s.capValid = true → s.capHw = Config.hwCrcPresent

/-- Every answer given so far is right. -/
abbrev AnswersRight (s : State) : Prop := ∀ a ∈ s.answers, RightAnswer a

/-- A run is faulted when a reserved command has been answered: spec/60_exceptions.md R231 has a model treat that as a
fault of the run (log entry 3). -/
def runFaulted (s : State) : Bool := s.answers.any (fun a => a.rsp.err)

/-- The requests of a requester that have been answered, in answer order, then those still outstanding, in issue order
(spec/20_memory.md R57). -/
def historyOf (r : Nat) (s : State) : List Request :=
  ((answersTo r s).map (fun a => a.issued.req)) ++ ((outstandingOf r s).map (fun p => p.req))

/-- `s` with another capability cache. -/
def withCache (valid hw : Bool) (s : State) : State := { s with capValid := valid, capHw := hw }

/-- The state invariant of the unit: a sound cache and right answers. -/
abbrev UnitInv (s : State) : Prop := CacheSound s ∧ AnswersRight s

/-! The formulas of the rules over unsigned numbers, as spec/00_scope.md R22 defines the operators: exact arithmetic,
reduced modulo 2^n where the rule says so. Statements compare the machine's BitVec results with these. -/

/-- `x XOR (x >> k)` (R22). -/
def natXorShift (k x : Nat) : Nat := x ^^^ (x / 2 ^ k)

/-- `FMIX64` (R23). -/
def natFmix64 (x c1 c2 : Nat) : Nat :=
  natXorShift 33 (natXorShift 33 (natXorShift 33 x * c1 % 2 ^ 64) * c2 % 2 ^ 64)

/-- One round of `CRC32C_STEP` (spec/41_primitive_mixers.md R107). -/
def natCrcRound (s : Nat) : Nat := (s / 2) ^^^ (if s % 2 = 1 then 0x82F63B78 else 0)

/-- `CRC32C_STEP`: exactly 8 rounds (R107). -/
def natCrcStep (st byte : Nat) : Nat := natCrcRound^[8] (st ^^^ byte)

/-- `KNUTH_MIX32` (spec/42_integer_hash.md R132). -/
def natKnuthMix32 (x : Nat) : Nat :=
  natXorShift 16 (natXorShift 16 (natXorShift 16 x * 0x045D9F3B % 2 ^ 32) * 0x045D9F3B % 2 ^ 32)

/-- `WANG_MIX64` (R133). -/
def natWangMix64 (x : Nat) : Nat :=
  natXorShift 31
    (natXorShift 27 (natXorShift 30 x * 0xBF58476D1CE4E5B9 % 2 ^ 64) * 0x94D049BB133111EB % 2 ^ 64)

/-- `BOOST_STEP_W` (spec/43_combine.md R153). -/
def natBoostStep (w golden a b : Nat) : Nat := a ^^^ ((b + golden + a * 2 ^ 6 % 2 ^ w + a / 2 ^ 2) % 2 ^ w)

/-- The product and the mask of the seed mix, at 64 bits (spec/44_seedmix.md R170). -/
def natMaskedProduct (y mixConstant tableSize : Nat) : Nat :=
  (y * mixConstant % 2 ^ 64) &&& ((tableSize + (2 ^ 64 - 1)) % 2 ^ 64)

/-- The port bits a legal command reads, as masks of `A`, `B`, `C`, `D`: the column "reads" of
spec/30_encoding.md R78. -/
def readMasks (cmd : BitVec 8) : Option (Word64 × Word64 × Word64 × Word64) :=
  let all := 0xFFFFFFFFFFFFFFFF#64
  let low := 0xFFFFFFFF#64
  let byte := 0xFF#64
  let none_ := 0#64
  match cmd.toNat with
  | 0x00 => some (low, byte, none_, none_)
  | 0x10 => some (all, byte, none_, none_)
  | 0x01 => some (low, byte, all, none_)
  | 0x11 => some (all, byte, all, none_)
  | 0x02 => some (low, byte, none_, none_)
  | 0x12 => some (all, byte, none_, none_)
  | 0x03 => some (low, byte, none_, none_)
  | 0x04 => some (low, byte, none_, none_)
  | 0x05 => some (low, low, none_, none_)
  | 0x25 => some (all, low, none_, none_)
  | 0x35 => some (all, all, none_, none_)
  | 0x06 => some (low, low, low, none_)
  | 0x16 => some (all, all, all, none_)
  | 0x07 => some (low, low, none_, none_)
  | 0x17 => some (all, all, none_, none_)
  | 0x08 => some (low, low, all, all)
  | 0x18 => some (all, all, all, all)
  | 0x09 => some (low, low, all, none_)
  | 0x19 => some (all, all, all, none_)
  | _ => none

/-- A request with the port bits its command does not read put to 0; a reserved one as it is. -/
def readPart (q : Request) : Request :=
  match readMasks q.cmd with
  | some (a, b, c, d) => ⟨q.cmd, q.a &&& a, q.b &&& b, q.c &&& c, q.d &&& d⟩
  | none => q

end Sys2Proof
end

