-- ==== Sys2Proof/Laws/State.lean ====
section
/-! SUPPORT. One lemma per field of State and update of it: what the update makes of the field. -/

namespace Sys2Proof.Machine

@[simp] theorem deliver_capValid (p : Response) (s : State) : (deliver p s).capValid = s.capValid := rfl
@[simp] theorem deliver_capHw (p : Response) (s : State) : (deliver p s).capHw = s.capHw := rfl
@[simp] theorem deliver_pending (p : Response) (s : State) : (deliver p s).pending = s.pending := rfl
@[simp] theorem deliver_outstanding (p : Response) (s : State) : (deliver p s).outstanding = s.outstanding := rfl
@[simp] theorem deliver_serving (p : Response) (s : State) : (deliver p s).serving = s.serving := rfl
@[simp] theorem deliver_answers (p : Response) (s : State) : (deliver p s).answers = s.answers ++ [⟨s.serving, p⟩] := rfl
@[simp] theorem deliver_resetLine (p : Response) (s : State) : (deliver p s).resetLine = s.resetLine := rfl
@[simp] theorem deliver_draws (p : Response) (s : State) : (deliver p s).draws = s.draws := rfl

@[simp] theorem answerReserved_capValid (s : State) : (answerReserved s).capValid = s.capValid := rfl
@[simp] theorem answerReserved_capHw (s : State) : (answerReserved s).capHw = s.capHw := rfl
@[simp] theorem answerReserved_pending (s : State) : (answerReserved s).pending = s.pending := rfl
@[simp] theorem answerReserved_outstanding (s : State) : (answerReserved s).outstanding = s.outstanding := rfl
@[simp] theorem answerReserved_serving (s : State) : (answerReserved s).serving = s.serving := rfl
@[simp] theorem answerReserved_answers (s : State) : (answerReserved s).answers = s.answers ++ [⟨s.serving, errResponse s.draws⟩] := rfl
@[simp] theorem answerReserved_resetLine (s : State) : (answerReserved s).resetLine = s.resetLine := rfl
@[simp] theorem answerReserved_draws (s : State) : (answerReserved s).draws = s.draws + 1 := rfl

@[simp] theorem performReset_capValid (s : State) : (performReset s).capValid = false := rfl
@[simp] theorem performReset_capHw (s : State) : (performReset s).capHw = Config.capHwAfterReset s.draws := rfl
@[simp] theorem performReset_pending (s : State) : (performReset s).pending = [] := rfl
@[simp] theorem performReset_outstanding (s : State) : (performReset s).outstanding = [] := rfl
@[simp] theorem performReset_serving (s : State) : (performReset s).serving = Issued.idle := rfl
@[simp] theorem performReset_answers (s : State) : (performReset s).answers = s.answers := rfl
@[simp] theorem performReset_resetLine (s : State) : (performReset s).resetLine = false := rfl
@[simp] theorem performReset_draws (s : State) : (performReset s).draws = s.draws + 1 := rfl

@[simp] theorem State.issue_capValid (r : Nat) (q : Request) (s : State) : (s.issue r q).capValid = s.capValid := rfl
@[simp] theorem State.issue_capHw (r : Nat) (q : Request) (s : State) : (s.issue r q).capHw = s.capHw := rfl
@[simp] theorem State.issue_pending (r : Nat) (q : Request) (s : State) : (s.issue r q).pending = s.pending ++ [⟨⟨r, q⟩, Config.patience s.draws⟩] := rfl
@[simp] theorem State.issue_serving (r : Nat) (q : Request) (s : State) : (s.issue r q).serving = s.serving := rfl
@[simp] theorem State.issue_answers (r : Nat) (q : Request) (s : State) : (s.issue r q).answers = s.answers := rfl
@[simp] theorem State.issue_resetLine (r : Nat) (q : Request) (s : State) : (s.issue r q).resetLine = s.resetLine := rfl
@[simp] theorem State.issue_draws (r : Nat) (q : Request) (s : State) : (s.issue r q).draws = s.draws + 1 := rfl
@[simp] theorem State.issue_outstanding (r : Nat) (q : Request) (s : State) : (s.issue r q).outstanding = s.outstanding ++ [⟨r, q⟩] := by
  simp [State.outstanding]

@[simp] theorem State.assertReset_capValid (s : State) : (s.assertReset).capValid = s.capValid := rfl
@[simp] theorem State.assertReset_capHw (s : State) : (s.assertReset).capHw = s.capHw := rfl
@[simp] theorem State.assertReset_pending (s : State) : (s.assertReset).pending = s.pending := rfl
@[simp] theorem State.assertReset_outstanding (s : State) : (s.assertReset).outstanding = s.outstanding := rfl
@[simp] theorem State.assertReset_serving (s : State) : (s.assertReset).serving = s.serving := rfl
@[simp] theorem State.assertReset_answers (s : State) : (s.assertReset).answers = s.answers := rfl
@[simp] theorem State.assertReset_resetLine (s : State) : (s.assertReset).resetLine = true := rfl
@[simp] theorem State.assertReset_draws (s : State) : (s.assertReset).draws = s.draws := rfl

@[simp] theorem State.withFetchWord_capValid (s : State) (nbits w : Nat) : (s.withFetchWord nbits w).capValid = s.capValid := rfl
@[simp] theorem State.withFetchWord_capHw (s : State) (nbits w : Nat) : (s.withFetchWord nbits w).capHw = s.capHw := rfl
@[simp] theorem State.withFetchWord_pending (s : State) (nbits w : Nat) : (s.withFetchWord nbits w).pending = [⟨⟨0, Request.ofNumber (w % 2 ^ nbits)⟩, 0⟩] := rfl
@[simp] theorem State.withFetchWord_outstanding (s : State) (nbits w : Nat) : (s.withFetchWord nbits w).outstanding = [⟨0, Request.ofNumber (w % 2 ^ nbits)⟩] := rfl
@[simp] theorem State.withFetchWord_serving (s : State) (nbits w : Nat) : (s.withFetchWord nbits w).serving = s.serving := rfl
@[simp] theorem State.withFetchWord_answers (s : State) (nbits w : Nat) : (s.withFetchWord nbits w).answers = s.answers := rfl
@[simp] theorem State.withFetchWord_resetLine (s : State) (nbits w : Nat) : (s.withFetchWord nbits w).resetLine = false := rfl
@[simp] theorem State.withFetchWord_draws (s : State) (nbits w : Nat) : (s.withFetchWord nbits w).draws = s.draws := rfl

@[simp] theorem answered_capValid (s : State) (r : Nat) : (answered s r).capValid = s.capValid := rfl
@[simp] theorem answered_capHw (s : State) (r : Nat) : (answered s r).capHw = s.capHw := rfl
@[simp] theorem answered_pending (s : State) (r : Nat) : (answered s r).pending = s.pending := rfl
@[simp] theorem answered_outstanding (s : State) (r : Nat) : (answered s r).outstanding = s.outstanding := rfl
@[simp] theorem answered_serving (s : State) (r : Nat) : (answered s r).serving = s.serving := rfl
@[simp] theorem answered_answers (s : State) (r : Nat) : (answered s r).answers = s.answers ++ [⟨s.serving, ⟨BitVec.ofNat 64 r, false⟩⟩] := rfl
@[simp] theorem answered_resetLine (s : State) (r : Nat) : (answered s r).resetLine = s.resetLine := rfl
@[simp] theorem answered_draws (s : State) (r : Nat) : (answered s r).draws = s.draws := rfl

@[simp] theorem withCache_capValid (v h : Bool) (s : State) : (withCache v h s).capValid = v := rfl
@[simp] theorem withCache_capHw (v h : Bool) (s : State) : (withCache v h s).capHw = h := rfl
@[simp] theorem withCache_pending (v h : Bool) (s : State) : (withCache v h s).pending = s.pending := rfl
@[simp] theorem withCache_outstanding (v h : Bool) (s : State) : (withCache v h s).outstanding = s.outstanding := rfl
@[simp] theorem withCache_serving (v h : Bool) (s : State) : (withCache v h s).serving = s.serving := rfl
@[simp] theorem withCache_answers (v h : Bool) (s : State) : (withCache v h s).answers = s.answers := rfl
@[simp] theorem withCache_resetLine (v h : Bool) (s : State) : (withCache v h s).resetLine = s.resetLine := rfl
@[simp] theorem withCache_draws (v h : Bool) (s : State) : (withCache v h s).draws = s.draws := rfl

@[simp] theorem probe_capValid (s : State) : (probe s).capValid = true := by
  cases h : s.capValid <;> simp [probe, h, Config.params]
@[simp] theorem probe_capHw (s : State) : (probe s).capHw = (if s.capValid then s.capHw else Config.hwCrcPresent) := by
  cases h : s.capValid <;> simp [probe, h, Config.params]
@[simp] theorem probe_pending (s : State) : (probe s).pending = s.pending := by
  cases h : s.capValid <;> simp [probe, h, Config.params]
@[simp] theorem probe_outstanding (s : State) : (probe s).outstanding = s.outstanding := by
  simp [State.outstanding]
@[simp] theorem probe_serving (s : State) : (probe s).serving = s.serving := by
  cases h : s.capValid <;> simp [probe, h, Config.params]
@[simp] theorem probe_answers (s : State) : (probe s).answers = s.answers := by
  cases h : s.capValid <;> simp [probe, h, Config.params]
@[simp] theorem probe_resetLine (s : State) : (probe s).resetLine = s.resetLine := by
  cases h : s.capValid <;> simp [probe, h, Config.params]
@[simp] theorem probe_draws (s : State) : (probe s).draws = s.draws := by
  cases h : s.capValid <;> simp [probe, h, Config.params]

end Sys2Proof.Machine
end

