-- ==== Sys2Proof/Laws/Operands.lean ====
section
/-! SUPPORT. Operand assembly undoes putting an operand on its port, and the widths as unsigned numbers. -/

namespace Sys2Proof.Machine

@[simp] theorem hashOperand32_zext64 (v : Word32) : hashOperand32 (zext64 v) = v := by
  apply BitVec.eq_of_toNat_eq
  have := v.isLt
  simp [hashOperand32, zext64, BitVec.extractLsb'_toNat]
  omega

@[simp] theorem byteOperand_byteTo64 (v : Byte) : byteOperand (byteTo64 v) = v := by
  apply BitVec.eq_of_toNat_eq
  have := v.isLt
  simp [byteOperand, byteTo64, BitVec.extractLsb'_toNat]
  omega

@[simp] theorem hashOperand64_eq (v : Word64) : hashOperand64 v = v := rfl

@[simp] theorem u64Operand_eq (v : Word64) : u64Operand v = v := rfl

theorem hashOperand32_eq_ofNat (v : Word64) : hashOperand32 v = BitVec.ofNat 32 v.toNat := by
  apply BitVec.eq_of_toNat_eq
  simp [hashOperand32, BitVec.extractLsb'_toNat]

theorem byteOperand_eq_ofNat (v : Word64) : byteOperand v = BitVec.ofNat 8 v.toNat := by
  apply BitVec.eq_of_toNat_eq
  simp [byteOperand, BitVec.extractLsb'_toNat]

@[simp] theorem zext64_toNat (v : Word32) : (zext64 v).toNat = v.toNat := by
  have := v.isLt
  simp only [zext64, BitVec.toNat_setWidth]
  omega

@[simp] theorem byteTo32_toNat (v : Byte) : (byteTo32 v).toNat = v.toNat := by
  have := v.isLt
  simp only [byteTo32, BitVec.toNat_setWidth]
  omega

@[simp] theorem byteTo64_toNat (v : Byte) : (byteTo64 v).toNat = v.toNat := by
  have := v.isLt
  simp only [byteTo64, BitVec.toNat_setWidth]
  omega

@[simp] theorem trunc32_toNat (v : Word64) : (trunc32 v).toNat = v.toNat % 2 ^ 32 := by
  simp only [trunc32, BitVec.toNat_setWidth]

/-- `x ^= x >> k` over unsigned numbers (R22). -/
@[simp] theorem xorShiftRight_toNat {n : Nat} (k : Nat) (x : BitVec n) :
    (xorShiftRight k x).toNat = natXorShift k x.toNat := by
  simp [xorShiftRight, natXorShift, Nat.shiftRight_eq_div_pow]

end Sys2Proof.Machine
end

