-- ==== Sys2Proof/Laws/Ops.lean ====
section
/-! SUPPORT. One lemma per shared operation, saying everything it can do. -/

namespace Sys2Proof.Machine

theorem answer64_eq (v : Word64) (s : State) : answer64 v s = .next (deliver ⟨v, false⟩ s) := rfl

theorem answer32_eq (v : Word32) (s : State) : answer32 v s = .next (deliver ⟨zext64 v, false⟩ s) := rfl

/-- The response a command gets is that of a state in which the cache has been probed: either path is the same step. -/
@[simp] theorem crc32cSelected_eq (hw : Bool) (st : Word32) (byte : Byte) :
    crc32cSelected hw st byte = crc32cStep st byte := by
  cases hw <;> rfl

/-- The state in which an instruction's answer is delivered: `CRC32C` probes first, no other does. -/
def beforeAnswer (i : Instr) (s : State) : State :=
  match i with
  | .crc32c _ _ => probe s
  | _ => s

@[simp] theorem beforeAnswer_pending (i : Instr) (s : State) : (beforeAnswer i s).pending = s.pending := by
  cases i <;> simp [beforeAnswer]

@[simp] theorem beforeAnswer_outstanding (i : Instr) (s : State) :
    (beforeAnswer i s).outstanding = s.outstanding := by
  simp [State.outstanding]

@[simp] theorem beforeAnswer_serving (i : Instr) (s : State) : (beforeAnswer i s).serving = s.serving := by
  cases i <;> simp [beforeAnswer]

@[simp] theorem beforeAnswer_answers (i : Instr) (s : State) : (beforeAnswer i s).answers = s.answers := by
  cases i <;> simp [beforeAnswer]

@[simp] theorem beforeAnswer_resetLine (i : Instr) (s : State) : (beforeAnswer i s).resetLine = s.resetLine := by
  cases i <;> simp [beforeAnswer]

@[simp] theorem beforeAnswer_draws (i : Instr) (s : State) : (beforeAnswer i s).draws = s.draws := by
  cases i <;> simp [beforeAnswer]

/-- The cache an instruction leaves: unchanged, or probed. -/
theorem beforeAnswer_cache (i : Instr) (s : State) :
    ((beforeAnswer i s).capValid = s.capValid ∧ (beforeAnswer i s).capHw = s.capHw) ∨
    ((∃ st byte, i = .crc32c st byte) ∧ (beforeAnswer i s).capValid = true ∧
      (beforeAnswer i s).capHw = if s.capValid then s.capHw else Config.hwCrcPresent) := by
  cases i with
  | crc32c st byte => exact .inr ⟨⟨st, byte, rfl⟩, by simp [beforeAnswer], by simp [beforeAnswer]⟩
  | _ => exact .inl ⟨rfl, rfl⟩

/-- Everything an instruction can do: it answers its request with its result, in every state. -/
theorem exec_eq (i : Instr) (s : State) :
    exec i s = .next (deliver ⟨resultOf Config.params i, false⟩ (beforeAnswer i s)) := by
  cases i with
  | crc32c st byte =>
    simp only [exec, execCrc32c, answer32_eq, crc32cSelected_eq]
    rfl
  | _ => rfl

/-- Taking the oldest request of a requester loses none and adds none. -/
theorem takeOldest_perm (r : Nat) (p : Waiting) (rest : List Waiting) :
    ((takeOldest r p rest).1 :: (takeOldest r p rest).2).Perm (p :: rest) := by
  induction rest generalizing p with
  | nil => exact .refl _
  | cons q rest ih =>
    unfold takeOldest
    split
    · exact .refl _
    · exact (List.Perm.swap _ _ _).trans ((ih q).cons p)

/-- The request taken is the requester's, if the requester has one. -/
theorem takeOldest_requester (r : Nat) (p : Waiting) (rest : List Waiting)
    (h : ∃ x ∈ p :: rest, x.issued.requester = r) : (takeOldest r p rest).1.issued.requester = r := by
  induction rest generalizing p with
  | nil =>
    obtain ⟨x, hx, hr⟩ := h
    rw [List.mem_singleton] at hx
    exact hx ▸ hr
  | cons q rest ih =>
    unfold takeOldest
    split
    · assumption
    · rename_i hp
      refine ih q ?_
      obtain ⟨x, hx, hr⟩ := h
      rcases List.mem_cons.mp hx with rfl | hx
      · exact absurd hr hp
      · exact ⟨x, hx, hr⟩

/-- The request taken is the oldest of its requester: seen by any one requester, it came first. -/
theorem takeOldest_filter (r : Nat) (p : Waiting) (rest : List Waiting) (k : Nat)
    (h : ∃ x ∈ p :: rest, x.issued.requester = r) :
    ((takeOldest r p rest).1 :: (takeOldest r p rest).2).filter (fun x => x.issued.requester == k) =
      (p :: rest).filter (fun x => x.issued.requester == k) := by
  induction rest generalizing p with
  | nil => rfl
  | cons q rest ih =>
    unfold takeOldest
    split
    · rfl
    · rename_i hp
      have hq : ∃ x ∈ q :: rest, x.issued.requester = r := by
        obtain ⟨x, hx, hr⟩ := h
        rcases List.mem_cons.mp hx with rfl | hx
        · exact absurd hr hp
        · exact ⟨x, hx, hr⟩
      rw [List.filter_cons (x := p) (xs := q :: rest), ← ih q hq]
      have hreq := takeOldest_requester r q rest hq
      by_cases hk : p.issued.requester = k
      · have hne : r ≠ k := fun e => hp (hk.trans e.symm)
        simp [hreq, hne, hk]
      · simp [List.filter_cons, hk]

/-- The requester chosen has an outstanding request. -/
theorem chosenRequester_mem (draw : Nat) (p : Waiting) (rest : List Waiting) :
    ∃ x ∈ p :: rest, x.issued.requester = chosenRequester draw p rest := by
  cases rest with
  | nil => exact ⟨p, List.mem_cons_self, rfl⟩
  | cons q rest =>
    simp only [chosenRequester]
    split
    · rename_i x hx
      exact ⟨x, List.mem_of_find?_eq_some hx, rfl⟩
    · have h : Config.arbiter draw % (rest.length + 2) < (p :: q :: rest).length := Nat.mod_lt _ (by simp)
      refine ⟨(p :: q :: rest)[Config.arbiter draw % (rest.length + 2)], List.getElem_mem h, ?_⟩
      simp only [List.getD_eq_getElem?_getD, List.getElem?_eq_getElem h, Option.getD_some]

/-- Once some request's patience is at an end, the requester chosen is that of the first such request. -/
theorem chosenRequester_of_find (draw : Nat) (p x : Waiting) (rest : List Waiting)
    (h : (p :: rest).find? (fun x => x.patience == 0) = some x) : chosenRequester draw p rest = x.issued.requester := by
  cases rest with
  | nil => rw [List.mem_singleton.mp (List.mem_of_find?_eq_some h)]; rfl
  | cons q rest => simp only [chosenRequester, h]

/-- What is taken stands at a place of its own, and no request of its requester stands before it. -/
theorem takeOldest_split (r : Nat) (p : Waiting) (rest : List Waiting) (h : ∃ x ∈ p :: rest, x.issued.requester = r) :
    ∃ before after, p :: rest = before ++ (takeOldest r p rest).1 :: after ∧ (takeOldest r p rest).2 = before ++ after ∧
      (takeOldest r p rest).1.issued.requester = r ∧ ∀ x ∈ before, x.issued.requester ≠ r := by
  induction rest generalizing p with
  | nil =>
    obtain ⟨x, hx, hr⟩ := h
    rw [List.mem_singleton] at hx
    exact ⟨[], [], rfl, rfl, hx ▸ hr, by simp⟩
  | cons q rest ih =>
    unfold takeOldest
    split
    · exact ⟨[], q :: rest, rfl, rfl, ‹_›, by simp⟩
    · rename_i hp
      obtain ⟨x, hx, hr⟩ := h
      obtain ⟨before, after, h1, h2, h3, h4⟩ := ih q ⟨x, (List.mem_cons.mp hx).resolve_left (fun e => hp (e ▸ hr)), hr⟩
      refine ⟨p :: before, after, congrArg (p :: ·) h1, congrArg (p :: ·) h2, h3, fun y hy => ?_⟩
      rcases List.mem_cons.mp hy with rfl | hy
      · exact hp
      · exact h4 y hy

@[simp] theorem passOver_issued (ws : List Waiting) : (passOver ws).map Waiting.issued = ws.map Waiting.issued := by
  simp [passOver]

@[simp] theorem passOver_length (ws : List Waiting) : (passOver ws).length = ws.length := List.length_map _

theorem passOver_append (us ws : List Waiting) : passOver (us ++ ws) = passOver us ++ passOver ws := List.map_append

@[simp] theorem passOver_nil : passOver [] = [] := rfl

@[simp] theorem passOver_cons (w : Waiting) (ws : List Waiting) :
    passOver (w :: ws) = { w with patience := w.patience - 1 } :: passOver ws := rfl

/-- Everything `select` can do: nothing is outstanding, or one request is taken, of which no requester has an older
one, and only `pending`, `serving` and `draws` change. -/
theorem select_cases (s : State) :
    (select s = none ∧ s.pending = []) ∨
    ∃ t, select s = some t ∧ (t.serving :: t.outstanding).Perm s.outstanding ∧
      (∀ k, (t.serving :: t.outstanding).filter (fun x => x.requester == k) =
        s.outstanding.filter (fun x => x.requester == k)) ∧
      t.capValid = s.capValid ∧ t.capHw = s.capHw ∧ t.answers = s.answers ∧ t.resetLine = s.resetLine := by
  unfold select
  split
  · exact .inl ⟨rfl, ‹_›⟩
  · rename_i p rest hp
    refine .inr ⟨_, rfl, ?_, ?_, rfl, rfl, rfl, rfl⟩
    · simp only [State.outstanding, hp, passOver_issued]
      exact (takeOldest_perm _ p rest).map Waiting.issued
    · intro k
      have h := congrArg (List.map Waiting.issued)
        (takeOldest_filter _ p rest k (chosenRequester_mem s.draws p rest))
      simp only [State.outstanding, hp, passOver_issued]
      rw [← List.map_cons, List.filter_map, List.filter_map]
      exact h

/-- Everything a step can do: reset; wait; or take one request, of which no requester has an older one, and answer it,
by its meaning or as a reserved command. `u` is the state in which it has been taken. -/
theorem step_cases (s : State) :
    (s.resetLine = true ∧ step s = .next (performReset s)) ∨
    (s.resetLine = false ∧ s.pending = [] ∧ step s = .next s) ∨
    (s.resetLine = false ∧ s.pending ≠ [] ∧ ∃ u, select s = some u ∧ (u.serving :: u.outstanding).Perm s.outstanding ∧
      (∀ k, (u.serving :: u.outstanding).filter (fun x => x.requester == k) =
        s.outstanding.filter (fun x => x.requester == k)) ∧
      u.capValid = s.capValid ∧ u.capHw = s.capHw ∧ u.answers = s.answers ∧ u.resetLine = false ∧
      ((∃ i, decode u.serving.req = .ok i ∧
          step s = .next (deliver ⟨resultOf Config.params i, false⟩ (beforeAnswer i u))) ∨
       (∃ e, decode u.serving.req = .error e ∧ step s = .next (answerReserved u)))) := by
  cases hr : s.resetLine
  · rcases select_cases s with ⟨hs, hp⟩ | ⟨u, hs, hperm, hf, hv, hh, ha, hl⟩
    · exact .inr (.inl ⟨rfl, hp, by simp [step, hr, hs]⟩)
    · have hne : s.pending ≠ [] := fun h => by simp [State.outstanding, h] at hperm
      refine .inr (.inr ⟨rfl, hne, u, hs, hperm, hf, hv, hh, ha, hl.trans hr, ?_⟩)
      cases hd : decode u.serving.req with
      | ok i => exact .inl ⟨i, rfl, by simp [step, hr, hs, serve, hd, exec_eq]⟩
      | error e => exact .inr ⟨e, rfl, by simp [step, hr, hs, serve, hd]⟩
  · exact .inl ⟨rfl, by simp [step, hr]⟩

end Sys2Proof.Machine
end

