-- ==== Sys2Proof/Laws/SoftwareLayer.lean ====
section
/-! SUPPORT. The software layer's integer rule: widening, the zero rule through it, and lengths. -/

namespace Sys2Proof.Machine

@[simp] theorem hashInt32_zero (seed : Word32) : hashInt32 0 seed = 0 := if_pos rfl

@[simp] theorem hashInt32From64_zero (seed : Word32) : hashInt32From64 0 seed = 0 := if_pos rfl

@[simp] theorem hashInt64_zero (seed : Word64) : hashInt64 0 seed = 0 := if_pos rfl

/-- An integer that has the width wanted is passed as it is, whatever `WIDEN` is. -/
theorem widen_self (sp : SoftParams) (v : IntValue) : widen sp v.bits v = v.value := by
  unfold widen
  split
  · exact BitVec.signExtend_eq v.value
  · exact BitVec.setWidth_eq v.value

/-- Zero widens to zero, whatever `WIDEN` is. -/
theorem widen_of_value_zero (sp : SoftParams) (n : Nat) (v : IntValue) (h : v.value = 0) : widen sp n v = 0 := by
  unfold widen
  rw [h]
  split
  · refine (BitVec.signExtend_eq_setWidth_of_msb_false (x := 0#v.bits) BitVec.msb_zero).trans ?_
    exact BitVec.setWidth_zero n v.bits
  · exact BitVec.setWidth_zero n v.bits

/-- The zero rule through the integer rule: every width, signedness and `WIDEN`. -/
theorem hashIntegral_of_value_zero (sp : SoftParams) (w : Width) (seed : BitVec w.bits) (v : IntValue)
    (h : v.value = 0) : hashIntegral sp w seed v = 0 := by
  cases w with
  | w32 =>
    simp only [hashIntegral, hashIntegral32, widen_of_value_zero sp _ v h]
    split
    · exact hashInt32_zero seed
    · exact hashInt32From64_zero seed
  | w64 => simp only [hashIntegral, hashIntegral64, widen_of_value_zero sp _ v h, hashInt64_zero]

/-- Length 0 and index 0 hash to 0 (R209, R210). -/
@[simp] theorem hashLength_zero (sp : SoftParams) (w : Width) (seed : BitVec w.bits) : hashLength sp w seed 0 = 0 :=
  hashIntegral_of_value_zero sp w seed (lengthValue sp 0) rfl

end Sys2Proof.Machine
end

