-- ==== Sys2Proof/Laws/Values.lean ====
section
/-! SUPPORT. The shared value functions as formulas over unsigned numbers. The products by a constant have lemmas of
their own: simp may not see through them, so cite these. -/

namespace Sys2Proof.Machine

theorem mul_knuth_toNat (x : Word32) : (x * knuthMultiplier32).toNat = x.toNat * 0x045D9F3B % 2 ^ 32 := by
  rw [BitVec.toNat_mul, show knuthMultiplier32.toNat = 0x045D9F3B from rfl]

theorem mul_wangC1_toNat (x : Word64) : (x * wangC1).toNat = x.toNat * 0xBF58476D1CE4E5B9 % 2 ^ 64 := by
  rw [BitVec.toNat_mul, show wangC1.toNat = 0xBF58476D1CE4E5B9 from rfl]

theorem mul_wangC2_toNat (x : Word64) : (x * wangC2).toNat = x.toNat * 0x94D049BB133111EB % 2 ^ 64 := by
  rw [BitVec.toNat_mul, show wangC2.toNat = 0x94D049BB133111EB from rfl]

theorem mul_fnvPrime32_toNat (x : Word32) : (x * fnvPrime32).toNat = x.toNat * 0x01000193 % 2 ^ 32 := by
  rw [BitVec.toNat_mul, show fnvPrime32.toNat = 0x01000193 from rfl]

theorem mul_fnvPrime64_toNat (x : Word64) : (x * fnvPrime64).toNat = x.toNat * 0x00000100000001B3 % 2 ^ 64 := by
  rw [BitVec.toNat_mul, show fnvPrime64.toNat = 0x00000100000001B3 from rfl]

theorem knuthMix32_toNat (x : Word32) : (knuthMix32 x).toNat = natKnuthMix32 x.toNat := by
  simp only [knuthMix32, natKnuthMix32, xorShiftRight_toNat, mul_knuth_toNat]

theorem wangMix64_toNat (x : Word64) : (wangMix64 x).toNat = natWangMix64 x.toNat := by
  simp only [wangMix64, natWangMix64, xorShiftRight_toNat, mul_wangC1_toNat, mul_wangC2_toNat]

theorem fmix64_toNat (x c1 c2 : Word64) : (fmix64 x c1 c2).toNat = natFmix64 x.toNat c1.toNat c2.toNat := by
  simp only [fmix64, natFmix64, xorShiftRight_toNat, BitVec.toNat_mul]

theorem boostStep_toNat {n : Nat} (golden a b : BitVec n) :
    (boostStep golden a b).toNat = natBoostStep n golden.toNat a.toNat b.toNat := by
  simp only [boostStep, natBoostStep, BitVec.toNat_xor, BitVec.toNat_add, BitVec.toNat_shiftLeft,
    BitVec.toNat_ushiftRight, Nat.shiftRight_eq_div_pow, Nat.shiftLeft_eq]
  congr 1
  simp only [Nat.add_mod, Nat.mod_mod]

theorem crcRound_toNat (s : Word32) : (crcRound s).toNat = natCrcRound s.toNat := by
  have h : s.getLsbD 0 = decide (s.toNat % 2 = 1) := by
    simp [BitVec.getLsbD, Nat.testBit_zero]
  rw [crcRound, natCrcRound, BitVec.toNat_xor, BitVec.toNat_ushiftRight, Nat.shiftRight_eq_div_pow, h]
  by_cases hs : s.toNat % 2 = 1
  · rw [if_pos (decide_eq_true hs), if_pos hs, pow_one]; rfl
  · rw [if_neg (by simpa using hs), if_neg hs, pow_one]; rfl

theorem maskedProduct_toNat (y mixConstant tableSize : Word64) :
    (maskedProduct y mixConstant tableSize).toNat =
      natMaskedProduct y.toNat mixConstant.toNat tableSize.toNat := by
  rw [maskedProduct, natMaskedProduct, BitVec.toNat_and, BitVec.toNat_mul, BitVec.toNat_sub]
  congr 2
  exact Nat.add_comm _ _

end Sys2Proof.Machine
end

