-- ==== Sys2Proof/Laws/PerInstr.lean ====
section
/-! SUPPORT. Statements made per instruction, one lemma per constructor. EncodesLegal: the encoder's request carries a
legal command byte, and the opcode map has the instruction's mnemonic for it (spec/30_encoding.md R78, R79). -/

namespace Sys2Proof.Laws.EncodesLegal

open Sys2Proof Sys2Proof.Machine

/-- The mnemonic of an instruction (R78). -/
def mnemonicOf : Instr → String
  | .larson32 _ _ => "LARSON.32"
  | .larson64 _ _ => "LARSON.64"
  | .fnv1a32 _ _ _ => "FNV1A.32"
  | .fnv1a64 _ _ _ => "FNV1A.64"
  | .fnv1ad32 _ _ => "FNV1AD.32"
  | .fnv1ad64 _ _ => "FNV1AD.64"
  | .crc32c _ _ => "CRC32C"
  | .crc32cs _ _ => "CRC32CS"
  | .hint32I32 _ _ => "HINT.32.I32"
  | .hint32I64 _ _ => "HINT.32.I64"
  | .hint64 _ _ => "HINT.64"
  | .combp32 _ _ _ => "COMBP.32"
  | .combp64 _ _ _ => "COMBP.64"
  | .comb32 _ _ => "COMB.32"
  | .comb64 _ _ => "COMB.64"
  | .smix32 _ _ _ _ => "SMIX.32"
  | .smix64 _ _ _ _ => "SMIX.64"
  | .smixd32 _ _ _ => "SMIXD.32"
  | .smixd64 _ _ _ => "SMIXD.64"

/-- The request of `i` is well formed, and its row of the opcode map is `i`'s. -/
def Statement (i : Instr) : Prop :=
  (encode i).wellFormed = true ∧ (rowOf (encode i).cmd).map OpRow.mnemonic = some (mnemonicOf i)

theorem larson32 (state : Word32) (byte : Byte) :
    Statement (.larson32 state byte) :=
  ⟨show commandLegal 0x00#8 = true by decide, rfl⟩

theorem larson64 (state : Word64) (byte : Byte) :
    Statement (.larson64 state byte) :=
  ⟨show commandLegal 0x10#8 = true by decide, rfl⟩

theorem fnv1a32 (state : Word32) (byte : Byte) (prime : Word64) :
    Statement (.fnv1a32 state byte prime) :=
  ⟨show commandLegal 0x01#8 = true by decide, rfl⟩

theorem fnv1a64 (state : Word64) (byte : Byte) (prime : Word64) :
    Statement (.fnv1a64 state byte prime) :=
  ⟨show commandLegal 0x11#8 = true by decide, rfl⟩

theorem fnv1ad32 (state : Word32) (byte : Byte) :
    Statement (.fnv1ad32 state byte) :=
  ⟨show commandLegal 0x02#8 = true by decide, rfl⟩

theorem fnv1ad64 (state : Word64) (byte : Byte) :
    Statement (.fnv1ad64 state byte) :=
  ⟨show commandLegal 0x12#8 = true by decide, rfl⟩

theorem crc32c (state : Word32) (byte : Byte) :
    Statement (.crc32c state byte) :=
  ⟨show commandLegal 0x03#8 = true by decide, rfl⟩

theorem crc32cs (state : Word32) (byte : Byte) :
    Statement (.crc32cs state byte) :=
  ⟨show commandLegal 0x04#8 = true by decide, rfl⟩

theorem hint32I32 (value : Word32) (seed : Word32) :
    Statement (.hint32I32 value seed) :=
  ⟨show commandLegal 0x05#8 = true by decide, rfl⟩

theorem hint32I64 (value : Word64) (seed : Word32) :
    Statement (.hint32I64 value seed) :=
  ⟨show commandLegal 0x25#8 = true by decide, rfl⟩

theorem hint64 (value : Word64) (seed : Word64) :
    Statement (.hint64 value seed) :=
  ⟨show commandLegal 0x35#8 = true by decide, rfl⟩

theorem combp32 (existing : Word32) (new : Word32) (prime : Word32) :
    Statement (.combp32 existing new prime) :=
  ⟨show commandLegal 0x06#8 = true by decide, rfl⟩

theorem combp64 (existing : Word64) (new : Word64) (prime : Word64) :
    Statement (.combp64 existing new prime) :=
  ⟨show commandLegal 0x16#8 = true by decide, rfl⟩

theorem comb32 (existing : Word32) (new : Word32) :
    Statement (.comb32 existing new) :=
  ⟨show commandLegal 0x07#8 = true by decide, rfl⟩

theorem comb64 (existing : Word64) (new : Word64) :
    Statement (.comb64 existing new) :=
  ⟨show commandLegal 0x17#8 = true by decide, rfl⟩

theorem smix32 (seed : Word32) (hash : Word32) (tableSize : Word64) (mixConstant : Word64) :
    Statement (.smix32 seed hash tableSize mixConstant) :=
  ⟨show commandLegal 0x08#8 = true by decide, rfl⟩

theorem smix64 (seed : Word64) (hash : Word64) (tableSize : Word64) (mixConstant : Word64) :
    Statement (.smix64 seed hash tableSize mixConstant) :=
  ⟨show commandLegal 0x18#8 = true by decide, rfl⟩

theorem smixd32 (seed : Word32) (hash : Word32) (tableSize : Word64) :
    Statement (.smixd32 seed hash tableSize) :=
  ⟨show commandLegal 0x09#8 = true by decide, rfl⟩

theorem smixd64 (seed : Word64) (hash : Word64) (tableSize : Word64) :
    Statement (.smixd64 seed hash tableSize) :=
  ⟨show commandLegal 0x19#8 = true by decide, rfl⟩

end Sys2Proof.Laws.EncodesLegal
end

