-- ==== Sys2Proof/Certificates/Slice0/Obligations.lean ====
section
/-! DEFINITION. The statements for the provers, from the numbered rules of spec/. A result is stated over unsigned
numbers, as spec/00_scope.md R22 defines the operators. `answered s r` is `s` with its request answered `ERR = 0`,
`R = r` and every other field unchanged (spec/30_encoding.md R71), so each such equation states its frame too. -/

open Sys2Proof Sys2Proof.Machine

/-! ### Reset, requests and responses -/

/-- spec/70_reset_and_hazards.md R261: after reset, at power-on or by the reset input, the probe has not run and no
request is outstanding. `CAP_HW` is unspecified there: no clause speaks of it. -/
def Obligations.ResetLeavesProbeNotRun : Prop :=
  State.reset.capValid = false ∧
  ∀ s : State, s.resetLine = true → ∃ t, step s = .next t ∧ t.capValid = false

/-- spec/70_reset_and_hazards.md R260: reset drops what is outstanding and answers none of it. That the answers already
given stay, and that the step lowers the line, are the model's (log entry 8). -/
def Obligations.ResetDropsOutstandingRequests : Prop :=
  State.reset.pending = [] ∧
  ∀ (s : State) (r : Nat) (q : Request), s.resetLine = true → ∃ t, step s = .next t ∧
    t.pending = [] ∧ t.answers = s.answers ∧ t.resetLine = false ∧ (t.issue r q).outstanding = [⟨r, q⟩]

/-- spec/10_state.md R30: the step takes one request and runs the instruction its bits decode to. The request that
is taken is no longer outstanding and is the one being served (log entry 1). -/
def Obligations.StepRunsTheDecodedRequest : Prop :=
  (∀ (s : State) (p : Waiting) (i : Instr), s.resetLine = false → s.pending = [p] → decode p.issued.req = .ok i →
    step s = exec i { s with pending := [], serving := p.issued }) ∧
  (∀ (s t : State) (i : Instr), s.resetLine = false → select s = some t → decode t.serving.req = .ok i →
    step s = exec i t)

/-- spec/60_exceptions.md R231: a reserved command that is the only one outstanding gets `ERR = 1` and an `R` nothing is
said of, and the cache is as before. The model's own, not R231's: that this is a NEXT state, where R231 has a model treat
the command as a fault of the run (log entry 3, DEDUCED); the fields of the interface (log entry 1); the counter of free
values, `draws + 1` (log entry 6). -/
def Obligations.ReservedCommandIsAnsweredWithErr : Prop :=
  ∀ (s : State) (p : Waiting) (e : Reserved), s.resetLine = false → s.pending = [p] → decode p.issued.req = .error e →
    ∃ r, step s = .next { s with
      pending := [], serving := p.issued, answers := s.answers ++ [⟨p.issued, ⟨r, true⟩⟩], draws := s.draws + 1 }

/-- spec/10_state.md R30, spec/60_exceptions.md R230: every legal request completes with `ERR = 0`, in every state and
on every operand, and its response is a function of the request and Config alone. -/
def Obligations.EveryOperationCompletes : Prop :=
  ∀ (i : Instr) (s : State), ∃ t, exec i s = .next t ∧
    t.answers = s.answers ++ [⟨s.serving, ⟨resultOf Config.params i, false⟩⟩]

/-- spec/10_state.md R30, R34: no operation but `CRC32C` changes the capability cache, and no operation changes the
outstanding requests, the request served, the reset line, the counter of free values or an earlier answer. -/
def Obligations.OperationFrame : Prop :=
  ∀ (i : Instr) (s t : State), exec i s = .next t →
    ((∀ st byte, i ≠ .crc32c st byte) → t.capValid = s.capValid ∧ t.capHw = s.capHw) ∧
    t.pending = s.pending ∧ t.serving = s.serving ∧ t.resetLine = s.resetLine ∧ t.draws = s.draws ∧
    t.answers.dropLast = s.answers

/-- spec/10_state.md R34 and R30: a sound cache and right answers are kept by every step, reset included. -/
def Obligations.StepKeepsUnitInvariant : Prop :=
  ∀ s t : State, UnitInv s → step s = .next t → UnitInv t

/-- The invariant holds right after reset. -/
def Obligations.ResetMeetsUnitInvariant : Prop := UnitInv State.reset

/-- spec/10_state.md R33, R34, spec/41_primitive_mixers.md R111: once the probe has run no step but reset changes the
cache; a step that runs it has answered a `CRC32C` request and stored `HW_CRC_PRESENT`. -/
def Obligations.ProbeRunsOnce : Prop :=
  ∀ s t : State, s.resetLine = false → step s = .next t →
    (s.capValid = true → t.capValid = true ∧ t.capHw = s.capHw) ∧
    (s.capValid = false → t.capValid = true →
      t.serving.req.cmd = 0x03#8 ∧ t.capHw = Config.hwCrcPresent) ∧
    (s.capValid = false → t.capValid = false → t.capHw = s.capHw)

/-- spec/10_state.md R39: no run can tell one content of the capability cache from another: from two states that differ
in the cache alone, the same number of steps gives the same answers and the same outstanding requests. -/
def Obligations.CacheIsUnobservable : Prop :=
  ∀ (n : Nat) (s t : State) (valid hw : Bool), core.run n s = .next t →
    ∃ t', core.run n (withCache valid hw s) = .next t' ∧ t'.answers = t.answers ∧ t'.pending = t.pending

/-- spec/20_memory.md R57: whatever the unit serves first, each requester sees its requests answered in the order it
issued them: its answered requests followed by its outstanding ones are the same list after a step as before. -/
def Obligations.ResponsesComeInIssueOrder : Prop :=
  ∀ s t : State, s.resetLine = false → step s = .next t → ∀ r, historyOf r t = historyOf r s

/-- spec/30_encoding.md R71, spec/20_memory.md R56, spec/70_reset_and_hazards.md R268: with reset not asserted, as many
steps as requests are outstanding answer each of them exactly once, each with the response its own bits call for,
whatever the arbitration. That a step answers a request is the model's measure; it says nothing of time (log entry 12). -/
def Obligations.EveryRequestGetsItsOneResponse : Prop :=
  ∀ s : State, s.resetLine = false → ∃ t new, core.run s.pending.length s = .next t ∧ t.pending = [] ∧
    t.answers = s.answers ++ new ∧ (new.map (fun a => a.issued)).Perm s.outstanding ∧ ∀ a ∈ new, RightAnswer a

/-- spec/70_reset_and_hazards.md R263, R268: every issued request is eventually answered, however many requests keep coming
and from whomever, while reset is not asserted. A request with `before` ahead of it is answered within `patience` and
`before.length + 1` further steps: its requester has by then the answers to all it issued up to it, in issue order, each
the right one. That fairness is a free finite patience, and that it is counted in steps, is the model's (log entries 21
and 12). -/
def Obligations.NoRequestIsPassedOverForEver : Prop :=
  ∀ (s : State) (before after : List Waiting) (w : Waiting) (turns : List (List (Nat × Request))),
    s.resetLine = false → s.pending = before ++ w :: after → before.length + w.patience < turns.length →
    ∃ t new, runTurns turns s = .next t ∧ t.answers = s.answers ++ new ∧ (∀ a ∈ new, RightAnswer a) ∧
      ((before ++ [w]).map Waiting.issued).filter (fun x => x.requester == w.issued.requester) <+:
        (new.map (fun a => a.issued)).filter (fun x => x.requester == w.issued.requester)

/-! ### Encoding -/

/-- spec/30_encoding.md R78, R79: the command bytes that decode are those the field rules call legal, and those are the
nineteen of the table; 237 are reserved. -/
def Obligations.LegalBytesAreTheNineteen : Prop :=
  (∀ q : Request, (∃ i, decode q = .ok i) ↔ q.wellFormed = true) ∧
  (∀ q : Request, q.wellFormed = true ↔ q.cmd.toNat ∈
    [0x00, 0x01, 0x02, 0x03, 0x04, 0x05, 0x06, 0x07, 0x08, 0x09, 0x10, 0x11, 0x12, 0x16, 0x17, 0x18, 0x19, 0x25, 0x35]) ∧
  ((List.range 256).filter (fun n => !commandLegal (BitVec.ofNat 8 n))).length = 237

/-- spec/30_encoding.md R72: port bits an operation does not read have no effect: two requests that agree in the bits
of the table's column "reads" decode to the same instruction. -/
def Obligations.UnreadPortBitsAreIgnored : Prop :=
  ∀ q q' : Request, readPart q = readPart q' → decode q = decode q'

/-- spec/30_encoding.md R78: every bit of the column "reads" is read, and no other: a decoded instruction encodes to the
request with its unread bits put to 0. -/
def Obligations.EncodeInvertsDecode : Prop :=
  ∀ (q : Request) (i : Instr), decode q = .ok i → encode i = readPart q

/-- spec/30_encoding.md R70, R78: every instruction, at every operand, is what its encoding decodes to, by fields and in
the packed 264-bit form. -/
def Obligations.DecodeInvertsEncode : Prop :=
  ∀ i : Instr, decode (encode i) = .ok i ∧ decodePacked (encodePacked i) = .ok i

/-- spec/30_encoding.md R70: the five fields of the packed request and their places. -/
def Obligations.PackedRequestFields : Prop :=
  (∀ q : Request, q.toPacked.toNat =
    q.d.toNat * 2 ^ 200 + q.c.toNat * 2 ^ 136 + q.b.toNat * 2 ^ 72 + q.a.toNat * 2 ^ 8 + q.cmd.toNat) ∧
  (∀ q : Request, Request.ofPacked q.toPacked = q) ∧
  (∀ w : BitVec 264, (Request.ofPacked w).toPacked = w) ∧
  (∀ w : BitVec 264, Request.ofNumber w.toNat = Request.ofPacked w)

/-- spec/30_encoding.md R71: the two fields of the packed response and their places; the result of an operation of
width 32 has `R[63:32] = 0`. -/
def Obligations.PackedResponseFields : Prop :=
  (∀ p : Response, p.toPacked.toNat = p.err.toNat * 2 ^ 64 + p.r.toNat) ∧
  (∀ p : Response, Response.ofPacked p.toPacked = p) ∧
  (∀ w : BitVec 65, (Response.ofPacked w).toPacked = w) ∧
  (∀ i : Instr, cmdW (encode i).cmd = 0 → (resultOf Config.params i).toNat < 2 ^ 32)

/-- Words written out in spec/95_test_vectors.md section 2.8, V-ENC-1 to V-ENC-9, decoded. -/
def Obligations.WordsOfTheSpecDecode : Prop :=
  decodePacked 0x000000000000000000000000000000000000000000000042000000000000004100#264
      = .ok (.larson32 0x41#32 0x42#8) ∧
  decodePacked 0x0000000000000000000000000000000000000000DEADBEEF000000000000002A35#264
      = .ok (.hint64 0x2A#64 0xDEADBEEF#64) ∧
  decodePacked 0x2545F4914F6CDD1D000000000000040000000000CAFEBABE00000000DEADBEEF08#264
      = .ok (.smix32 0xDEADBEEF#32 0xCAFEBABE#32 0x400#64 0x2545F4914F6CDD1D#64) ∧
  decodePacked 0x00000000000000000000000000000000000000000000009A000000001234567813#264 = .error .crcWide ∧
  decodePacked 0x000000000000000000000000000000000000000000000000000000000000002A15#264 = .error .hintNotWidened ∧
  decodePacked 0x000000000000000000000000000000000000000000000041000000000000000020#264 = .error .iwWithoutHint ∧
  decodePacked 0x00000000000000000000000000000000000000000000000000000000000000000A#264 = .error .opUnassigned ∧
  decodePacked 0x000000000000000000000000000000000000000000000000000000000000002A45#264 = .error .rsvNotZero

/-! ### The operations: encoding, operands, result, frame -/

/-- spec/41_primitive_mixers.md R101. -/
def Obligations.Larson32Answers : Prop :=
  (∀ a b c d : Word64, decode ⟨0x00#8, a, b, c, d⟩ =
    .ok (.larson32 (BitVec.ofNat 32 a.toNat) (BitVec.ofNat 8 b.toNat))) ∧
  ∀ (st : Word32) (byte : Byte) (s : State), exec (.larson32 st byte) s =
    .next (answered s ((37 * st.toNat + byte.toNat) % 2 ^ 32))

/-- spec/41_primitive_mixers.md R102. -/
def Obligations.Larson64Answers : Prop :=
  (∀ a b c d : Word64, decode ⟨0x10#8, a, b, c, d⟩ = .ok (.larson64 a (BitVec.ofNat 8 b.toNat))) ∧
  ∀ (st : Word64) (byte : Byte) (s : State), exec (.larson64 st byte) s =
    .next (answered s ((37 * st.toNat + byte.toNat) % 2 ^ 64))

/-- spec/41_primitive_mixers.md R103, R113: the product at 64 bits, its low 32 bits kept. -/
def Obligations.Fnv1a32Answers : Prop :=
  (∀ a b c d : Word64, decode ⟨0x01#8, a, b, c, d⟩ =
    .ok (.fnv1a32 (BitVec.ofNat 32 a.toNat) (BitVec.ofNat 8 b.toNat) c)) ∧
  ∀ (st : Word32) (byte : Byte) (prime : Word64) (s : State), exec (.fnv1a32 st byte prime) s =
    .next (answered s ((st.toNat ^^^ byte.toNat) * prime.toNat % 2 ^ 64 % 2 ^ 32))

/-- spec/41_primitive_mixers.md R104. -/
def Obligations.Fnv1a64Answers : Prop :=
  (∀ a b c d : Word64, decode ⟨0x11#8, a, b, c, d⟩ = .ok (.fnv1a64 a (BitVec.ofNat 8 b.toNat) c)) ∧
  ∀ (st : Word64) (byte : Byte) (prime : Word64) (s : State), exec (.fnv1a64 st byte prime) s =
    .next (answered s ((st.toNat ^^^ byte.toNat) * prime.toNat % 2 ^ 64))

/-- spec/41_primitive_mixers.md R105, with the prime of spec/00_scope.md R8. -/
def Obligations.Fnv1ad32Answers : Prop :=
  (∀ a b c d : Word64, decode ⟨0x02#8, a, b, c, d⟩ =
    .ok (.fnv1ad32 (BitVec.ofNat 32 a.toNat) (BitVec.ofNat 8 b.toNat))) ∧
  ∀ (st : Word32) (byte : Byte) (s : State), exec (.fnv1ad32 st byte) s =
    .next (answered s ((st.toNat ^^^ byte.toNat) * 0x01000193 % 2 ^ 32))

/-- spec/41_primitive_mixers.md R106, with the prime of spec/00_scope.md R8. -/
def Obligations.Fnv1ad64Answers : Prop :=
  (∀ a b c d : Word64, decode ⟨0x12#8, a, b, c, d⟩ = .ok (.fnv1ad64 a (BitVec.ofNat 8 b.toNat))) ∧
  ∀ (st : Word64) (byte : Byte) (s : State), exec (.fnv1ad64 st byte) s =
    .next (answered s ((st.toNat ^^^ byte.toNat) * 0x00000100000001B3 % 2 ^ 64))

/-- spec/41_primitive_mixers.md R107, R108: eight rounds, the cache neither read nor written; no 64-bit form. -/
def Obligations.Crc32csAnswers : Prop :=
  (∀ a b c d : Word64, decode ⟨0x04#8, a, b, c, d⟩ =
    .ok (.crc32cs (BitVec.ofNat 32 a.toNat) (BitVec.ofNat 8 b.toNat))) ∧
  (∀ a b c d : Word64, ∃ e, decode ⟨0x14#8, a, b, c, d⟩ = .error e) ∧
  ∀ (st : Word32) (byte : Byte) (s : State), exec (.crc32cs st byte) s =
    .next (answered s (natCrcStep st.toNat byte.toNat))

/-- spec/41_primitive_mixers.md R109, R111: the probe on the first use, then the same step by either path;
no 64-bit form. -/
def Obligations.Crc32cAnswers : Prop :=
  (∀ a b c d : Word64, decode ⟨0x03#8, a, b, c, d⟩ =
    .ok (.crc32c (BitVec.ofNat 32 a.toNat) (BitVec.ofNat 8 b.toNat))) ∧
  (∀ a b c d : Word64, ∃ e, decode ⟨0x13#8, a, b, c, d⟩ = .error e) ∧
  ∀ (st : Word32) (byte : Byte) (s : State), exec (.crc32c st byte) s =
    .next (answered
      { s with capValid := true, capHw := if s.capValid then s.capHw else Config.hwCrcPresent }
      (natCrcStep st.toNat byte.toNat))

/-- spec/42_integer_hash.md R134, R132, R137. -/
def Obligations.Hint32I32Answers : Prop :=
  (∀ a b c d : Word64, decode ⟨0x05#8, a, b, c, d⟩ =
    .ok (.hint32I32 (BitVec.ofNat 32 a.toNat) (BitVec.ofNat 32 b.toNat))) ∧
  ∀ (value seed : Word32) (s : State), exec (.hint32I32 value seed) s =
    .next (answered s (if value.toNat = 0 then 0 else natKnuthMix32 (value.toNat ^^^ seed.toNat)))

/-- spec/42_integer_hash.md R135, R132, R137: the seed lands in the low half, the halves fold by XOR. -/
def Obligations.Hint32I64Answers : Prop :=
  (∀ a b c d : Word64, decode ⟨0x25#8, a, b, c, d⟩ = .ok (.hint32I64 a (BitVec.ofNat 32 b.toNat))) ∧
  ∀ (value : Word64) (seed : Word32) (s : State), exec (.hint32I64 value seed) s =
    .next (answered s (if value.toNat = 0 then 0 else
      natKnuthMix32 (((value.toNat ^^^ seed.toNat) / 2 ^ 32) ^^^ ((value.toNat ^^^ seed.toNat) % 2 ^ 32))))

/-- spec/42_integer_hash.md R136, R133, R137. -/
def Obligations.Hint64Answers : Prop :=
  (∀ a b c d : Word64, decode ⟨0x35#8, a, b, c, d⟩ = .ok (.hint64 a b)) ∧
  ∀ (value seed : Word64) (s : State), exec (.hint64 value seed) s =
    .next (answered s (if value.toNat = 0 then 0 else natWangMix64 (value.toNat ^^^ seed.toNat)))

/-- spec/43_combine.md R151. -/
def Obligations.Combp32Answers : Prop :=
  (∀ a b c d : Word64, decode ⟨0x06#8, a, b, c, d⟩ =
    .ok (.combp32 (BitVec.ofNat 32 a.toNat) (BitVec.ofNat 32 b.toNat) (BitVec.ofNat 32 c.toNat))) ∧
  ∀ (a b prime : Word32) (s : State), exec (.combp32 a b prime) s =
    .next (answered s ((a.toNat ^^^ b.toNat) * prime.toNat % 2 ^ 32))

/-- spec/43_combine.md R152. -/
def Obligations.Combp64Answers : Prop :=
  (∀ a b c d : Word64, decode ⟨0x16#8, a, b, c, d⟩ = .ok (.combp64 a b c)) ∧
  ∀ (a b prime : Word64) (s : State), exec (.combp64 a b prime) s =
    .next (answered s ((a.toNat ^^^ b.toNat) * prime.toNat % 2 ^ 64))

/-- spec/43_combine.md R153, R154, whatever `GOLDEN_RATIO_32` is. -/
def Obligations.Comb32Answers : Prop :=
  (∀ a b c d : Word64, decode ⟨0x07#8, a, b, c, d⟩ =
    .ok (.comb32 (BitVec.ofNat 32 a.toNat) (BitVec.ofNat 32 b.toNat))) ∧
  ∀ (a b : Word32) (s : State), exec (.comb32 a b) s =
    .next (answered s (natBoostStep 32 Config.goldenRatio32.toNat a.toNat b.toNat))

/-- spec/43_combine.md R153, R155, spec/00_scope.md R23, whatever the three constants are. -/
def Obligations.Comb64Answers : Prop :=
  (∀ a b c d : Word64, decode ⟨0x17#8, a, b, c, d⟩ = .ok (.comb64 a b)) ∧
  ∀ (a b : Word64) (s : State), exec (.comb64 a b) s =
    .next (answered s (natFmix64 (natBoostStep 64 Config.goldenRatio64.toNat a.toNat b.toNat)
      Config.combC1.toNat Config.combC2.toNat))

/-- spec/44_seedmix.md R170, R172, whatever `WMIX32` is. -/
def Obligations.Smix32Answers : Prop :=
  (∀ a b c d : Word64, decode ⟨0x08#8, a, b, c, d⟩ =
    .ok (.smix32 (BitVec.ofNat 32 a.toNat) (BitVec.ofNat 32 b.toNat) c d)) ∧
  ∀ (seed hash : Word32) (tableSize mixConstant : Word64) (s : State),
    exec (.smix32 seed hash tableSize mixConstant) s =
    .next (answered s (natMaskedProduct (Config.wmix32 (BitVec.ofNat 32 (seed.toNat + hash.toNat))).toNat
      mixConstant.toNat tableSize.toNat % 2 ^ 32))

/-- spec/44_seedmix.md R170, R173, whatever the two multipliers are. -/
def Obligations.Smix64Answers : Prop :=
  (∀ a b c d : Word64, decode ⟨0x18#8, a, b, c, d⟩ = .ok (.smix64 a b c d)) ∧
  ∀ (seed hash tableSize mixConstant : Word64) (s : State), exec (.smix64 seed hash tableSize mixConstant) s =
    .next (answered s (natMaskedProduct
      (natFmix64 ((seed.toNat + hash.toNat) % 2 ^ 64) Config.smixC1.toNat Config.smixC2.toNat)
      mixConstant.toNat tableSize.toNat))

/-- spec/44_seedmix.md R170, R174. -/
def Obligations.Smixd32Answers : Prop :=
  (∀ a b c d : Word64, decode ⟨0x09#8, a, b, c, d⟩ =
    .ok (.smixd32 (BitVec.ofNat 32 a.toNat) (BitVec.ofNat 32 b.toNat) c)) ∧
  ∀ (seed hash : Word32) (tableSize : Word64) (s : State), exec (.smixd32 seed hash tableSize) s =
    .next (answered s (natMaskedProduct (Config.wmix32 (BitVec.ofNat 32 (seed.toNat + hash.toNat))).toNat
      Config.mixConstantDefault.toNat tableSize.toNat % 2 ^ 32))

/-- spec/44_seedmix.md R170, R175. -/
def Obligations.Smixd64Answers : Prop :=
  (∀ a b c d : Word64, decode ⟨0x19#8, a, b, c, d⟩ = .ok (.smixd64 a b c)) ∧
  ∀ (seed hash tableSize : Word64) (s : State), exec (.smixd64 seed hash tableSize) s =
    .next (answered s (natMaskedProduct
      (natFmix64 ((seed.toNat + hash.toNat) % 2 ^ 64) Config.smixC1.toNat Config.smixC2.toNat)
      Config.mixConstantDefault.toNat tableSize.toNat))

/-! ### What the rules say of the operations together -/

/-- spec/41_primitive_mixers.md R110: the response to `CRC32C` is that to `CRC32CS` with the same operands, in every two
states and for every value of `HW_CRC_PRESENT`. That the circuit is `CRC32C_STEP` is the rule's equation, which the
model takes as its definition (log entry 11). -/
def Obligations.HardwareAndSoftwareCrcAgree : Prop :=
  ∀ (st : Word32) (byte : Byte) (s s' : State), ∃ t t' p,
    exec (.crc32c st byte) s = .next t ∧ exec (.crc32cs st byte) s' = .next t' ∧
    t.answers = s.answers ++ [⟨s.serving, p⟩] ∧ t'.answers = s'.answers ++ [⟨s'.serving, p⟩]

/-- spec/41_primitive_mixers.md R114 (a) to (d). -/
def Obligations.CrcStepAlgebra : Prop :=
  (∀ (st : Word32) (byte : Byte), crc32cStep st byte = crc32cStep (st ^^^ byteTo32 byte) 0) ∧
  (∀ x y : Word32, crc32cStep (x ^^^ y) 0 = crc32cStep x 0 ^^^ crc32cStep y 0) ∧
  Function.Bijective (fun x : Word32 => crc32cStep x 0) ∧
  (∀ byte : Byte, Function.Bijective (fun st : Word32 => crc32cStep st byte)) ∧
  (∀ st : Word32, Function.Injective (fun byte : Byte => crc32cStep st byte))

/-- spec/00_scope.md R9: the two forms of the Castagnoli polynomial are each other's reversal, and the step in the
reflected form is, on reversed bits, the step that shifts left, tests the top bit and uses the normal form. -/
def Obligations.CrcPolynomialFormsAgree : Prop :=
  crc32cPolyNormal.reverse = crc32cPolyReflected ∧
  ∀ (st : Word32) (byte : Byte), (crc32cStep st byte).reverse =
    (fun s : Word32 => (s <<< 1) ^^^ (if s.getLsbD 31 then crc32cPolyNormal else 0#32))^[8]
      (st ^^^ byteTo32 byte).reverse

/-- spec/41_primitive_mixers.md R112: the closed form of a Larson fold at both widths, and the source's 91494. -/
def Obligations.LarsonFoldClosedForm : Prop :=
  (∀ (s0 : Word32) (bytes : List Byte), (bytes.foldl larsonStep32 s0).toNat =
    (37 ^ bytes.length * s0.toNat +
      ∑ i : Fin bytes.length, 37 ^ (bytes.length - 1 - i) * (bytes.get i).toNat) % 2 ^ 32) ∧
  (∀ (s0 : Word64) (bytes : List Byte), (bytes.foldl larsonStep64 s0).toNat =
    (37 ^ bytes.length * s0.toNat +
      ∑ i : Fin bytes.length, 37 ^ (bytes.length - 1 - i) * (bytes.get i).toNat) % 2 ^ 64) ∧
  [65#8, 66#8, 67#8].foldl larsonStep32 0 = 91494#32

/-- spec/41_primitive_mixers.md R102, R104, spec/43_combine.md R152: at 32 bits these are the truncations of the
operation at 64 bits. -/
def Obligations.NarrowOperationsTruncateWideOnes : Prop :=
  (∀ (st : Word32) (byte : Byte), larsonStep32 st byte = trunc32 (larsonStep64 (zext64 st) byte)) ∧
  (∀ (st : Word32) (byte : Byte) (prime : Word64),
    fnv1aStep32 st byte prime = trunc32 (fnv1aStep64 (zext64 st) byte prime)) ∧
  (∀ a b prime : Word32,
    combinePrime32 a b prime = trunc32 (combinePrime64 (zext64 a) (zext64 b) (zext64 prime)))

/-- spec/41_primitive_mixers.md R103, R105, R106: only the low half of the prime acts at 32 bits, and the default form
is the explicit form with the default prime. -/
def Obligations.FnvPrimeLowHalfActs : Prop :=
  (∀ (st : Word32) (byte : Byte) (prime prime' : Word64), prime.toNat % 2 ^ 32 = prime'.toNat % 2 ^ 32 →
    fnv1aStep32 st byte prime = fnv1aStep32 st byte prime') ∧
  (∀ (st : Word32) (byte : Byte), fnv1adStep32 st byte = fnv1aStep32 st byte 0x01000193#64) ∧
  (∀ (st : Word64) (byte : Byte), fnv1adStep64 st byte = fnv1aStep64 st byte 0x00000100000001B3#64)

/-- spec/41_primitive_mixers.md R101, R103, R104: for a fixed byte the Larson step is a bijection of the state, and so is
the FNV-1a step with an odd prime. -/
def Obligations.ByteStepsAreBijections : Prop :=
  (∀ byte : Byte, Function.Bijective (fun st : Word32 => larsonStep32 st byte)) ∧
  (∀ byte : Byte, Function.Bijective (fun st : Word64 => larsonStep64 st byte)) ∧
  (∀ (byte : Byte) (prime : Word64), prime.toNat % 2 = 1 →
    Function.Bijective (fun st : Word32 => fnv1aStep32 st byte prime)) ∧
  (∀ (byte : Byte) (prime : Word64), prime.toNat % 2 = 1 →
    Function.Bijective (fun st : Word64 => fnv1aStep64 st byte prime))

/-- spec/42_integer_hash.md R132, R133: both mixes fix 0 and are bijections. -/
def Obligations.IntegerMixesAreBijections : Prop :=
  knuthMix32 0 = 0 ∧ wangMix64 0 = 0 ∧ Function.Bijective knuthMix32 ∧ Function.Bijective wangMix64

/-- spec/42_integer_hash.md R138 (a), (b), R137: when each integer hash is 0. -/
def Obligations.IntegerHashZeroes : Prop :=
  (∀ v s : Word32, hashInt32 v s = 0 ↔ v = 0 ∨ v = s) ∧
  (∀ v s : Word64, hashInt64 v s = 0 ↔ v = 0 ∨ v = s) ∧
  (∀ (v : Word64) (s : Word32), hashInt32From64 v s = 0 ↔
    v = 0 ∨ (v.toNat / 2 ^ 32) ^^^ (v.toNat % 2 ^ 32) = s.toNat)

/-- spec/42_integer_hash.md R138 (c) and R135: away from the sentinel a seed is an XOR mask on the input; and a 64-bit
input with a zero high half hashes to 32 bits as its low half does. -/
def Obligations.SeedIsAnXorMask : Prop :=
  (∀ v s : Word32, v ≠ 0 → v ^^^ s ≠ 0 → hashInt32 v s = hashInt32 (v ^^^ s) 0) ∧
  (∀ v s : Word64, v ≠ 0 → v ^^^ s ≠ 0 → hashInt64 v s = hashInt64 (v ^^^ s) 0) ∧
  (∀ v s : Word32, hashInt32From64 (zext64 v) s = hashInt32 v s)

/-- spec/00_scope.md R23: `FMIX64` fixes 0, and with odd multipliers it is a bijection. -/
def Obligations.FinalizerIsABijection : Prop :=
  (∀ c1 c2 : Word64, fmix64 0 c1 c2 = 0) ∧
  (∀ c1 c2 : Word64, c1.toNat % 2 = 1 → c2.toNat % 2 = 1 → Function.Bijective (fun x => fmix64 x c1 c2))

/-- spec/43_combine.md R157 (a) to (d), for every choice of the open constants. At 64 bits (a) asks for odd multipliers,
as R157 does. That (d) asks for them too, for `COMB` at 64 bits not being symmetric, is this statement's own hypothesis,
which R157 does not have: with `COMB_C1 = 0` the form is constantly 0, and symmetric. -/
def Obligations.CombineLaws : Prop :=
  (∀ (p : Params) (a : Word32), Function.Bijective (fun b => combine32 p a b)) ∧
  (∀ (p : Params) (a : Word64), p.combC1.toNat % 2 = 1 → p.combC2.toNat % 2 = 1 →
    Function.Bijective (fun b => combine64 p a b)) ∧
  (∀ b prime : Word32, prime.toNat % 2 = 1 → Function.Bijective (fun a => combinePrime32 a b prime)) ∧
  (∀ b prime : Word64, prime.toNat % 2 = 1 → Function.Bijective (fun a => combinePrime64 a b prime)) ∧
  (∀ a prime : Word32, combinePrime32 a a prime = 0) ∧ (∀ a prime : Word64, combinePrime64 a a prime = 0) ∧
  (∀ a b prime : Word32, combinePrime32 a b prime = combinePrime32 b a prime) ∧
  (∀ a b prime : Word64, combinePrime64 a b prime = combinePrime64 b a prime) ∧
  (∀ p : Params, ∃ a b, combine32 p a b ≠ combine32 p b a) ∧
  (∀ p : Params, p.combC1.toNat % 2 = 1 → p.combC2.toNat % 2 = 1 → ∃ a b, combine64 p a b ≠ combine64 p b a)

/-- spec/44_seedmix.md R176: for a table size of 1 or more, a power of two or not, the result of all four operations is
below it; for a power of two that of the explicit forms is the low bits of the product, and for 0 it is the whole
product (at 32 bits its low half). For every choice of the open parameters. -/
def Obligations.SeedMixResultIsBelowTableSize : Prop :=
  ∀ p : Params,
  (∀ (seed hash : Word32) (tableSize mixConstant : Word64),
    (tableSize ≠ 0 → (resultOf p (.smix32 seed hash tableSize mixConstant)).toNat < tableSize.toNat ∧
      (resultOf p (.smixd32 seed hash tableSize)).toNat < tableSize.toNat) ∧
    (∀ k, k ≤ 63 → tableSize.toNat = 2 ^ k →
      (resultOf p (.smix32 seed hash tableSize mixConstant)).toNat =
        (p.wmix32 (seed + hash)).toNat * mixConstant.toNat % 2 ^ min k 32) ∧
    (tableSize = 0 → (resultOf p (.smix32 seed hash tableSize mixConstant)).toNat =
      (p.wmix32 (seed + hash)).toNat * mixConstant.toNat % 2 ^ 32)) ∧
  (∀ seed hash tableSize mixConstant : Word64,
    (tableSize ≠ 0 → (resultOf p (.smix64 seed hash tableSize mixConstant)).toNat < tableSize.toNat ∧
      (resultOf p (.smixd64 seed hash tableSize)).toNat < tableSize.toNat) ∧
    (∀ k, k ≤ 63 → tableSize.toNat = 2 ^ k →
      (resultOf p (.smix64 seed hash tableSize mixConstant)).toNat =
        (fmix64 (seed + hash) p.smixC1 p.smixC2).toNat * mixConstant.toNat % 2 ^ k) ∧
    (tableSize = 0 → (resultOf p (.smix64 seed hash tableSize mixConstant)).toNat =
      (fmix64 (seed + hash) p.smixC1 p.smixC2).toNat * mixConstant.toNat % 2 ^ 64))

/-- spec/44_seedmix.md R172, R174: at 32 bits the high halves of the mix constant and of the mask never show, and the
default form is the explicit one with the default constant. -/
def Obligations.NarrowSeedMixIgnoresHighHalves : Prop :=
  ∀ (p : Params) (seed hash : Word32) (tableSize mixConstant mixConstant' : Word64),
    seedMix32 p seed hash tableSize mixConstant =
      p.wmix32 (seed + hash) * trunc32 mixConstant &&& trunc32 (tableSize - 1) ∧
    (trunc32 mixConstant = trunc32 mixConstant' →
      seedMix32 p seed hash tableSize mixConstant = seedMix32 p seed hash tableSize mixConstant') ∧
    resultOf p (.smixd32 seed hash tableSize) = resultOf p (.smix32 seed hash tableSize p.mixConstantDefault)

/-! ### The host above the unit -/

/-- spec/20_memory.md R54, spec/30_encoding.md R83: a `FOLD` of one of the six byte steps, run as requests to the unit
from any state with reset not asserted, whatever else is outstanding, ends with one response per byte, and the last
is the step folded over the bytes, first byte first. -/
def Obligations.FoldRunsOnTheUnit : Prop :=
  (∀ (cmd : BitVec 8) (f : Word32 → Byte → Word32),
    (cmd, f) ∈ [(0x00#8, larsonStep32), (0x02#8, fnv1adStep32), (0x03#8, crc32cStep), (0x04#8, crc32cStep)] →
    ∀ (r : Nat) (start : Word32) (bytes : List Byte) (s : State), s.resetLine = false →
    ∃ t env, runListing r [] (foldLines cmd [] (.lit start.toNat) 0 bytes) s = .next (t, env) ∧
      env.length = bytes.length ∧
      (bytes ≠ [] → env.getLast? = some ⟨zext64 (bytes.foldl f start), false⟩) ∧
      evalHost env (foldName (.lit start.toNat) 0 bytes) = some (bytes.foldl f start).toNat) ∧
  (∀ (cmd : BitVec 8) (f : Word64 → Byte → Word64),
    (cmd, f) ∈ [(0x10#8, larsonStep64), (0x12#8, fnv1adStep64)] →
    ∀ (r : Nat) (start : Word64) (bytes : List Byte) (s : State), s.resetLine = false →
    ∃ t env, runListing r [] (foldLines cmd [] (.lit start.toNat) 0 bytes) s = .next (t, env) ∧
      env.length = bytes.length ∧
      (bytes ≠ [] → env.getLast? = some ⟨bytes.foldl f start, false⟩) ∧
      evalHost env (foldName (.lit start.toNat) 0 bytes) = some (bytes.foldl f start).toNat)

/-- spec/30_encoding.md R82, spec/60_exceptions.md R231, for two two-line listings: a reserved command with no operand,
then `CRC32CS`. If the second line uses the first one's `R`, the listing stops there; if it uses its `ERR`, it runs on.
R82 and R231 give the use of that `R` no defined behaviour: that the listing stops, and as `errResultUsed`, is the model's
choice (log entries 16 and 3). -/
def Obligations.ErrResultMayNotBeUsed : Prop :=
  ∀ (r : Nat) (cmd : BitVec 8) (byte : Byte) (s : State), s.resetLine = false → commandLegal cmd = false →
    runListing r [] [⟨cmd, []⟩, ⟨0x04#8, [.result 0, .lit byte.toNat]⟩] s = .fault (.errResultUsed 1) ∧
    ∃ t p, runListing r [] [⟨cmd, []⟩, ⟨0x04#8, [.errBit 0, .lit byte.toNat]⟩] s =
      .next (t, [p, ⟨zext64 (crc32cStep 1 byte), false⟩]) ∧ p.err = true ∧ (s.pending = [] → t.capValid = s.capValid)

/-- spec/70_reset_and_hazards.md R260 drops a request issued and not yet answered when reset arrives, and has the host not
wait for it. The model's own: that a request issued while reset is asserted is dropped too (log entry 8, an unsafe DESIGN
CHOICE), and that the listing that waits for it stops as `responseNeverComes` (log entry 16). The listing is one `CRC32CS`
with two literals. -/
def Obligations.DroppedRequestGetsNoResponse : Prop :=
  ∀ (r : Nat) (st byte : Nat) (s : State), s.resetLine = true →
    runListing r [] [⟨0x04#8, [.lit st, .lit byte]⟩] s = .fault (.responseNeverComes 0)

/-- spec/45_host_compositions.md R197: the low half of the zero-seeded 64-bit string hash is the zero-seeded 32-bit
hash; and with equal seed halves the two halves of the hash of a one-byte string differ. -/
def Obligations.DualStreamHalves : Prop :=
  (∀ bytes : List Byte, (hashBytes64 0 bytes).extractLsb' 0 32 = hashBytes32 0 bytes) ∧
  (∀ (h : Word32) (byte : Byte),
    (hashBytes64 (h ++ h) [byte]).extractLsb' 32 32 ≠ (hashBytes64 (h ++ h) [byte]).extractLsb' 0 32)

/-- spec/45_host_compositions.md R192, R193, for every choice of the layer's parameters: every zero hashes to 0, and all
NaN patterns hash alike. What a NaN pattern is, is general knowledge (log entry 18). -/
def Obligations.FloatHashNormalises : Prop :=
  ∀ (sp : SoftParams) (w : Width) (seed : BitVec w.bits),
  (∀ x : Word32, x.toNat % 2 ^ 31 = 0 → hashFloat sp w seed x = 0) ∧
  (∀ x : Word64, x.toNat % 2 ^ 63 = 0 → hashDouble sp w seed x = 0) ∧
  (∀ x y : Word32, x.toNat / 2 ^ 23 % 2 ^ 8 = 255 → x.toNat % 2 ^ 23 ≠ 0 →
    y.toNat / 2 ^ 23 % 2 ^ 8 = 255 → y.toNat % 2 ^ 23 ≠ 0 → hashFloat sp w seed x = hashFloat sp w seed y) ∧
  (∀ x y : Word64, x.toNat / 2 ^ 52 % 2 ^ 11 = 2047 → x.toNat % 2 ^ 52 ≠ 0 →
    y.toNat / 2 ^ 52 % 2 ^ 11 = 2047 → y.toNat % 2 ^ 52 ≠ 0 → hashDouble sp w seed x = hashDouble sp w seed y)

/-- spec/45_host_compositions.md R206 to R209, for every choice of the parameters: a tuple, an array or a slice with one
more element combines its hash with that element's; the empty array hashes to the seed; a growable sequence starts from
the combine of the seed and the hash of its length, whatever the length's width, signedness and `WIDEN` are (log entry
19); and the empty one hashes as an absent optional does. -/
def Obligations.SequencesFoldTheDefaultCombine : Prop :=
  ∀ (p : Params) (sp : SoftParams) (w : Width) (seed : BitVec w.bits),
  (∀ (vs : List Value) (v : Value),
    hashValue p sp w seed (.array (vs ++ [v])) =
      combineAt p w (hashValue p sp w seed (.array vs)) (hashValue p sp w seed v) ∧
    hashValue p sp w seed (.tuple vs) = hashValue p sp w seed (.array vs) ∧
    hashValue p sp w seed (.slice vs) = hashValue p sp w seed (.array vs)) ∧
  hashValue p sp w seed (.array []) = seed ∧
  (∀ vs : List Value, hashValue p sp w seed (.sequence vs) =
    (vs.map (hashValue p sp w seed)).foldl (combineAt p w)
      (combineAt p w seed (hashLength sp w seed vs.length))) ∧
  hashValue p sp w seed (.sequence []) = hashValue p sp w seed .absent
end

