-- ==== Sys2Proof/Tests/Slice0.lean ====
section
/-! SUPPORT. Tests. Expected values are those of spec/95_test_vectors.md (the vector is named at each test); the words of
the decode tests are written out from spec/30_encoding.md R70 (`D`, `C`, `B`, `A`, `CMD` from the top digit down) and the
column "reads" of R78, with unread bits set. The witnesses at the end meet the hypotheses of the obligations. -/

namespace Sys2Proof.Tests

open Sys2Proof Sys2Proof.Machine

/-- A small state: one request outstanding, the cache as given. -/
def oneRequest (valid hw : Bool) (q : Request) : State :=
  { capValid := valid, capHw := hw, pending := [⟨⟨0, q⟩, 0⟩], serving := Issued.idle, answers := [],
    resetLine := false, draws := 1 }

/-- The newest response of a next state. -/
def newestResponse (o : Host.Outcome State Fault Refusal) : Option Response :=
  match o with
  | .next t => t.answers.getLast?.map (fun a => a.rsp)
  | .fault _ => none
  | .refused _ => none

/-- The cache of a next state. -/
def cacheAfter (o : Host.Outcome State Fault Refusal) : Option (Bool × Bool) :=
  match o with
  | .next t => some (t.capValid, t.capHw)
  | .fault _ => none
  | .refused _ => none

/-- The response to one request, in one step. -/
def responseTo (cmd : BitVec 8) (a b c d : Word64) : Option Response :=
  newestResponse (step (oneRequest false false ⟨cmd, a, b, c, d⟩))

/-! ### Every constructor's decoding, by a word -/

theorem test_decode_larson32 : decode (Request.ofNumber
    0x00000000000022220000000000001111FFFFFFFFFFFFFF42FFFFFFFF0000004100) =
    .ok (.larson32 0x41#32 0x42#8) := by decide

theorem test_decode_larson64 : decode (Request.ofNumber
    0x00000000000022220000000000001111FFFFFFFFFFFFFF42800000000000004110) =
    .ok (.larson64 0x8000000000000041#64 0x42#8) := by decide

theorem test_decode_fnv1a32 : decode (Request.ofNumber
    0x0000000000002222FFFFFFFF01000193FFFFFFFFFFFFFF61FFFFFFFF811C9DC501) =
    .ok (.fnv1a32 0x811C9DC5#32 0x61#8 0xFFFFFFFF01000193#64) := by decide

theorem test_decode_fnv1a64 : decode (Request.ofNumber
    0x000000000000222200000100000001B3FFFFFFFFFFFFFF61CBF29CE48422232511) =
    .ok (.fnv1a64 0xCBF29CE484222325#64 0x61#8 0x100000001B3#64) := by decide

theorem test_decode_fnv1ad32 : decode (Request.ofNumber
    0x0000000000002222DEADBEEFDEADBEEFFFFFFFFFFFFFFF61FFFFFFFF811C9DC502) =
    .ok (.fnv1ad32 0x811C9DC5#32 0x61#8) := by decide

theorem test_decode_fnv1ad64 : decode (Request.ofNumber
    0x000000000000222200000000DEADBEEFFFFFFFFFFFFFFF61CBF29CE48422232512) =
    .ok (.fnv1ad64 0xCBF29CE484222325#64 0x61#8) := by decide

theorem test_decode_crc32c : decode (Request.ofNumber
    0x00000000000022220000000000000000000000000000BB9AAAAAAAAA1234567803) =
    .ok (.crc32c 0x12345678#32 0x9A#8) := by decide

theorem test_decode_crc32cs : decode (Request.ofNumber
    0x00000000000000000000000000001111000000000000BB9AAAAAAAAA1234567804) =
    .ok (.crc32cs 0x12345678#32 0x9A#8) := by decide

theorem test_decode_hint32I32 : decode (Request.ofNumber
    0x00000000000000000000000000000000FFFFFFFFDEADBEEFFFFFFFFF0000002A05) =
    .ok (.hint32I32 0x2A#32 0xDEADBEEF#32) := by decide

theorem test_decode_hint32I64 : decode (Request.ofNumber
    0x00000000000000000000000000000000FFFFFFFFDEADBEEFFFFFFFFF0000002A25) =
    .ok (.hint32I64 0xFFFFFFFF0000002A#64 0xDEADBEEF#32) := by decide

theorem test_decode_hint64 : decode (Request.ofNumber
    0x0000000000000001000000000000000180000000DEADBEEFFFFFFFFF0000002A35) =
    .ok (.hint64 0xFFFFFFFF0000002A#64 0x80000000DEADBEEF#64) := by decide

theorem test_decode_combp32 : decode (Request.ofNumber
    0x0000000000000007FFFFFFFF01000193FFFFFFFFCAFEBABEFFFFFFFFDEADBEEF06) =
    .ok (.combp32 0xDEADBEEF#32 0xCAFEBABE#32 0x01000193#32) := by decide

theorem test_decode_combp64 : decode (Request.ofNumber
    0x000000000000000700000100000001B30123456789ABCDEFDEADBEEFCAFEBABE16) =
    .ok (.combp64 0xDEADBEEFCAFEBABE#64 0x0123456789ABCDEF#64 0x100000001B3#64) := by decide

theorem test_decode_comb32 : decode (Request.ofNumber
    0x00000000000000080000000000000007FFFFFFFFCAFEBABEFFFFFFFFDEADBEEF07) =
    .ok (.comb32 0xDEADBEEF#32 0xCAFEBABE#32) := by decide

theorem test_decode_comb64 : decode (Request.ofNumber
    0x000000000000000800000000000000070123456789ABCDEFDEADBEEFCAFEBABE17) =
    .ok (.comb64 0xDEADBEEFCAFEBABE#64 0x0123456789ABCDEF#64) := by decide

theorem test_decode_smix32 : decode (Request.ofNumber
    0x2545F4914F6CDD1D8000000000000400FFFFFFFFCAFEBABEFFFFFFFFDEADBEEF08) =
    .ok (.smix32 0xDEADBEEF#32 0xCAFEBABE#32 0x8000000000000400#64 0x2545F4914F6CDD1D#64) := by decide

theorem test_decode_smix64 : decode (Request.ofNumber
    0x2545F4914F6CDD1D00000000000004000123456789ABCDEFDEADBEEFCAFEBABE18) =
    .ok (.smix64 0xDEADBEEFCAFEBABE#64 0x0123456789ABCDEF#64 0x400#64 0x2545F4914F6CDD1D#64) := by decide

theorem test_decode_smixd32 : decode (Request.ofNumber
    0xFFFFFFFFFFFFFFFF8000000000000100FFFFFFFF00000002FFFFFFFF0000000109) =
    .ok (.smixd32 1#32 2#32 0x8000000000000100#64) := by decide

theorem test_decode_smixd64 : decode (Request.ofNumber
    0xFFFFFFFFFFFFFFFF0000000000000010FFFFFFFF00000002FFFFFFFF0000000119) =
    .ok (.smixd64 0xFFFFFFFF00000001#64 0xFFFFFFFF00000002#64 0x10#64) := by decide

/-! ### Well-formedness: a command byte that each check refuses, and lines of a listing that are none -/

/-- `45`: `RSV = 01` (R79, V-ENC-9). -/
theorem test_wf_rsv : rsvClear 0x45#8 = false ∧ commandLegal 0x45#8 = false := by decide

/-- `0A`: the first unassigned `OP` (V-ENC-8). -/
theorem test_wf_op : opAssigned 0x0A#8 = false ∧ commandLegal 0x0A#8 = false := by decide

/-- `20`: `IW = 1` without `HINT` (V-ENC-7). -/
theorem test_wf_iw : iwOnlyHint 0x20#8 = false ∧ commandLegal 0x20#8 = false := by decide

/-- `13` and `14`: the CRC steps at `W = 1` (V-ENC-4, V-ENC-5). -/
theorem test_wf_crc : crcNarrow 0x13#8 = false ∧ crcNarrow 0x14#8 = false ∧ commandLegal 0x13#8 = false := by decide

/-- `15`: `HINT` at `W = 1` with `IW = 0` (V-ENC-6). -/
theorem test_wf_hint : hintWidened 0x15#8 = false ∧ commandLegal 0x15#8 = false := by decide

/-- A legal byte, a reserved one: the request's ports play no part (R80). -/
theorem test_wf_request : Request.wellFormed ⟨0x35#8, 1, 2, 3, 4⟩ = true ∧
    Request.wellFormed ⟨0xFF#8, 0, 0, 0, 0⟩ = false := by decide

/-- One operand where two are read; a name of a later line (R82). -/
theorem test_wf_line : lineWellFormed 0 ⟨0x00#8, [.lit 1]⟩ = false ∧
    lineWellFormed 1 ⟨0x00#8, [.result 1, .lit 1]⟩ = false ∧
    lineWellFormed 1 ⟨0x00#8, [.result 0, .lit 1]⟩ = true := by decide

/-- The listing of such a line is refused. -/
theorem test_listing_refuses : runListing 0 [] [⟨0x00#8, [.lit 1]⟩] State.reset =
    .refused (.illFormedLine 0) := rfl

/-! ### One step of each operation -/

/-- V-LAR-3. -/
theorem test_larson32_wraps : responseTo 0x00#8 0xFFFFFFFF#64 0xFF#64 0x0#64 0x0#64 =
    some ⟨0xDA#64, false⟩ := by decide

/-- V-LAR-9. -/
theorem test_larson32_upper_bits_ignored : responseTo 0x00#8 0xFFFFFFFF00000041#64 0x1F42#64 0x0#64 0x0#64 =
    some ⟨0x9A7#64, false⟩ := by decide

/-- V-LAR-12. -/
theorem test_larson64_carries : responseTo 0x10#8 0xFFFFFFFF#64 0xFF#64 0x0#64 0x0#64 =
    some ⟨0x25000000DA#64, false⟩ := by decide

/-- V-FNV-11. -/
theorem test_fnv1a32_low_half_of_prime : responseTo 0x01#8 0x811C9DC5#64 0x61#64 0x100000001B3#64 0x0#64 =
    some ⟨0x639FDDAC#64, false⟩ := by decide

/-- V-FNV-14. -/
theorem test_fnv1a32_even_prime : responseTo 0x01#8 0x12345678#64 0x9A#64 0x2#64 0x0#64 =
    some ⟨0x2468ADC4#64, false⟩ := by decide

/-- V-FNV-16. -/
theorem test_fnv1a64 : responseTo 0x11#8 0x12345678#64 0x9A#64 0x1000193#64 0x0#64 =
    some ⟨0x1234738A64C5C6#64, false⟩ := by decide

/-- V-FNV-18. -/
theorem test_fnv1ad32 : responseTo 0x02#8 0x811C9DC5#64 0x61#64 0xDEADBEEFDEADBEEF#64 0x0#64 =
    some ⟨0xE40C292C#64, false⟩ := by decide

/-- V-FNV-6. -/
theorem test_fnv1ad64 : responseTo 0x12#8 0xCBF29CE484222325#64 0x61#64 0x0#64 0x0#64 =
    some ⟨0xAF63DC4C8601EC8C#64, false⟩ := by decide

/-- V-CRC-16. -/
theorem test_crc32cs : responseTo 0x04#8 0x12345678#64 0x9A#64 0x0#64 0x0#64 =
    some ⟨0x219ECBB#64, false⟩ := by decide

/-- V-CRC-3. -/
theorem test_crc32cs_last_round : responseTo 0x04#8 0x0#64 0x80#64 0x0#64 0x0#64 =
    some ⟨0x82F63B78#64, false⟩ := by decide

/-- V-HINT-5. -/
theorem test_hint32I32 : responseTo 0x05#8 0x2A#64 0xDEADBEEF#64 0x0#64 0x0#64 =
    some ⟨0x86E0D29#64, false⟩ := by decide

/-- V-HINT-2. -/
theorem test_hint32I32_zero : responseTo 0x05#8 0x0#64 0xDEADBEEF#64 0x0#64 0x0#64 =
    some ⟨0x0#64, false⟩ := by decide

/-- V-HINT-20. -/
theorem test_hint32I64 : responseTo 0x25#8 0x123456789ABCDEF0#64 0xDEADBEEF#64 0x0#64 0x0#64 =
    some ⟨0x9E55837#64, false⟩ := by decide

/-- V-HINT-17. -/
theorem test_hint32I64_halves_cancel : responseTo 0x25#8 0x100000001#64 0x0#64 0x0#64 0x0#64 =
    some ⟨0x0#64, false⟩ := by decide

/-- V-HINT-34. -/
theorem test_hint64 : responseTo 0x35#8 0x123456789ABCDEF0#64 0xFEDCBA987654321#64 0x0#64 0x0#64 =
    some ⟨0xB3E4DB8834785CB6#64, false⟩ := by decide

/-- V-HINT-26. -/
theorem test_hint64_zero : responseTo 0x35#8 0x0#64 0xCBF29CE484222325#64 0x0#64 0x0#64 =
    some ⟨0x0#64, false⟩ := by decide

/-- V-COMBP-15. -/
theorem test_combp32 : responseTo 0x06#8 0xDEADBEEF#64 0xCAFEBABE#64 0xFFFFFFFF01000193#64 0x0#64 =
    some ⟨0x4FAFCB83#64, false⟩ := by decide

/-- V-COMBP-13. -/
theorem test_combp64 : responseTo 0x16#8 0xDEADBEEFCAFEBABE#64 0x123456789ABCDEF#64 0x100000001B3#64 0x0#64 =
    some ⟨0x356CB98A6A39BEA3#64, false⟩ := by decide

/-! The operations with an open constant: the value with the defaults that the vectors are computed with. -/

/-- V-COMB-7. -/
theorem test_comb32 : combine32 Params.defaults 0xDEADBEEF#32 0xCAFEBABE#32 = 0x92FCE11D#32 := by decide

/-- V-COMB-10: `a << 6` drops the top bit. -/
theorem test_comb32_shifts : combine32 Params.defaults 0x80000000#32 0#32 = 0x3E3779B9#32 := by decide

/-- V-COMB-18. -/
theorem test_comb64 : combine64 Params.defaults 0xDEADBEEFCAFEBABE#64 0x0123456789ABCDEF#64 =
    0x3F1BD4D18D3F2F35#64 := by decide

/-- V-COMB-17: all additions wrap. -/
theorem test_comb64_wraps : combine64 Params.defaults 0xFFFFFFFFFFFFFFFF#64 0xFFFFFFFFFFFFFFFF#64 =
    0x1987D4747A878312#64 := by decide

/-- V-SMIX-3. -/
theorem test_smix32 : resultOf Params.defaults (.smix32 0xDEADBEEF#32 0xCAFEBABE#32 0x400#64 0x2545F4914F6CDD1D#64) =
    0x371#64 := by decide

/-- V-SMIX-6: table size 0. -/
theorem test_smix32_table_size_zero :
    resultOf Params.defaults (.smix32 1#32 2#32 0#64 0x2545F4914F6CDD1D#64) = 0x9C469757#64 := by decide

/-- V-SMIX-19. -/
theorem test_smix64 : resultOf Params.defaults
    (.smix64 0xDEADBEEFCAFEBABE#64 0x0123456789ABCDEF#64 0x400#64 0x2545F4914F6CDD1D#64) = 0x351#64 := by decide

/-- V-SMIX-22: table size 0. -/
theorem test_smix64_table_size_zero :
    resultOf Params.defaults (.smix64 1#64 2#64 0#64 0x2545F4914F6CDD1D#64) = 0x3C93F17EFD426556#64 := by decide

/-- V-SMIX-14. -/
theorem test_smixd32 : resultOf Params.defaults (.smixd32 1#32 2#32 0x100#64) = 0x57#64 := by decide

/-- V-SMIX-28. -/
theorem test_smixd64 : resultOf Params.defaults (.smixd64 1#64 2#64 0x10#64) = 6#64 := by decide

/-! ### The cache and the error bit -/

/-- V-ENC-12: the first `CRC32C` probes. -/
theorem test_probe_runs : cacheAfter (step (oneRequest false false ⟨0x03#8, 0, 1, 0, 0⟩)) =
    some (true, Config.hwCrcPresent) := rfl

/-- V-ENC-13: a valid cache stays as it is. -/
theorem test_probe_runs_once : cacheAfter (step (oneRequest true true ⟨0x03#8, 0, 1, 0, 0⟩)) =
    some (true, true) := by decide

/-- V-ENC-11: the software step does not probe. -/
theorem test_software_step_does_not_probe : cacheAfter (step (oneRequest false false ⟨0x04#8, 0, 1, 0, 0⟩)) =
    some (false, false) := by decide

/-- V-ENC-14: a reserved command does not probe and is answered with `ERR = 1`. -/
theorem test_reserved_command :
    cacheAfter (step (oneRequest false false ⟨0x13#8, 0, 1, 0, 0⟩)) = some (false, false) ∧
    (responseTo 0x13#8 0 1 0 0).map Response.err = some true := ⟨by decide, rfl⟩

/-- V-CRC-10, by both paths. -/
theorem test_crc32c :
    newestResponse (step (oneRequest true true ⟨0x03#8, 0x12345678, 0x9A, 0, 0⟩)) = some ⟨0x0219ECBB#64, false⟩ ∧
    newestResponse (step (oneRequest true false ⟨0x03#8, 0x12345678, 0x9A, 0, 0⟩)) = some ⟨0x0219ECBB#64, false⟩ := by
  decide

/-! ### The software layer -/

/-- V-SW-2, V-SW-3: the string "a". -/
theorem test_string_hash : hashBytes32 0 [0x61#8] = 0x93AD1061#32 ∧
    hashBytes64 0 [0x61#8] = 0x3ED0433093AD1061#64 := by decide

/-- V-SW-8: an optional, absent and present. -/
theorem test_optional :
    hashValue Params.defaults SoftParams.defaults .w32 (0#32) .absent = 0x9E3779B9#32 ∧
    hashValue Params.defaults SoftParams.defaults .w32 (0#32) (.present (.integral ⟨32, true, 42#32, by decide, by decide⟩)) =
      0x5FC4E342#32 := by decide

/-- V-HINT-4 and V-HINT-16, presented by integers of widths other than 8, 16, 32 and 64: 42 of 24 and of 48 bits, 1 of
one bit of an unsigned type (R200). -/
theorem test_integral_widths :
    hashIntegral SoftParams.defaults .w32 (0#32) ⟨24, true, 42#24, by decide, by decide⟩ = 0xF733CAF5#32 ∧
    hashIntegral SoftParams.defaults .w32 (0#32) ⟨48, true, 42#48, by decide, by decide⟩ = 0xF733CAF5#32 ∧
    hashIntegral SoftParams.defaults .w32 (0#32) ⟨1, false, 1#1, by decide, by decide⟩ = 0x31251BA7#32 := by decide

/-- V-HINT-12 and V-HINT-37: -42 of eight bits, sign-extended by the `WIDEN` of the defaults. -/
theorem test_widen_signed :
    hashIntegral SoftParams.defaults .w32 (0#32) ⟨8, true, 0xD6#8, by decide, by decide⟩ = 0x6DBD342D#32 ∧
    hashIntegral SoftParams.defaults .w64 (0#64) ⟨8, true, 0xD6#8, by decide, by decide⟩ = 0x74ABC7F0EFC4AFA7#64 := by
  decide

/-- V-SW-5: the entry point with its defaults, output width 32 and the offset basis as the seed (R212), and at width 64
with the default seed. -/
theorem test_entry_defaults :
    hashEntry Params.defaults SoftParams.defaults (.str [0x61#8, 0x62#8, 0x63#8]) = 0x78D56466#32 ∧
    hashEntry Params.defaults SoftParams.defaults (.str [0x61#8, 0x62#8, 0x63#8]) .w64 = 0xFFA1DE76061EE48B#64 := by
  decide

/-- V-SW-10 and V-SW-16: an empty growable sequence, and a variant in alternative 1. -/
theorem test_length_and_index :
    hashValue Params.defaults SoftParams.defaults .w32 (0#32) (.sequence []) = 0x9E3779B9#32 ∧
    hashValue Params.defaults SoftParams.defaults .w32 (0#32)
      (.variant 1 (.integral ⟨32, true, 7#32, by decide, by decide⟩)) = 0xCDB89AF2#32 := by decide

/-! ### Witnesses: states and operands that meet the hypotheses of the obligations -/

/-- A legal request, a reserved one, and a state with one of them. -/
def legalRequest : Request := ⟨0x00#8, 0x41, 0x42, 0, 0⟩
def reservedRequest : Request := ⟨0x45#8, 0x2A, 0, 0, 0⟩
def legalState : State := oneRequest false false legalRequest
def reservedState : State := oneRequest false false reservedRequest

/-- Two requests outstanding. -/
def twoRequests : State := { legalState with pending := [⟨⟨0, legalRequest⟩, 5⟩, ⟨⟨1, ⟨0x03#8, 0, 1, 0, 0⟩⟩, 5⟩] }

theorem test_witness_ResetLeavesProbeNotRun : (twoRequests.assertReset).resetLine = true := rfl

theorem test_witness_ResetDropsOutstandingRequests :
    (twoRequests.assertReset).resetLine = true ∧ (twoRequests.assertReset).pending ≠ [] := by decide

theorem test_witness_StepRunsTheDecodedRequest : legalState.resetLine = false ∧
    legalState.pending = [⟨⟨0, legalRequest⟩, 0⟩] ∧ decode legalRequest = .ok (.larson32 0x41#32 0x42#8) := by decide

/-- Its second clause, with two requests outstanding: whichever is taken is legal. -/
theorem test_witness_StepRunsTheDecodedRequest_two : twoRequests.resetLine = false ∧
    ∃ t i, select twoRequests = some t ∧ decode t.serving.req = .ok i := by
  refine ⟨rfl, ?_⟩
  obtain ⟨x, hx, hr⟩ := chosenRequester_mem 1 ⟨⟨0, legalRequest⟩, 5⟩ [⟨⟨1, ⟨0x03#8, 0, 1, 0, 0⟩⟩, 5⟩]
  have h : chosenRequester 1 ⟨⟨0, legalRequest⟩, 5⟩ [⟨⟨1, ⟨0x03#8, 0, 1, 0, 0⟩⟩, 5⟩] = 0 ∨
      chosenRequester 1 ⟨⟨0, legalRequest⟩, 5⟩ [⟨⟨1, ⟨0x03#8, 0, 1, 0, 0⟩⟩, 5⟩] = 1 := by
    rw [← hr]
    rcases List.mem_cons.mp hx with rfl | hx
    · exact .inl rfl
    · rw [List.mem_singleton.mp hx]; exact .inr rfl
  simp only [select, twoRequests, legalState, oneRequest]
  rcases h with h | h <;> rw [h]
  · exact ⟨_, .larson32 0x41#32 0x42#8, rfl, by decide⟩
  · exact ⟨_, .crc32c 0#32 1#8, rfl, by decide⟩

theorem test_witness_ReservedCommandIsAnsweredWithErr : reservedState.resetLine = false ∧
    reservedState.pending = [⟨⟨0, reservedRequest⟩, 0⟩] ∧ decode reservedRequest = .error .rsvNotZero := by decide

/-- An operation other than `CRC32C`, and `CRC32C` itself. -/
theorem test_witness_OperationFrame :
    (∃ t, exec (.larson32 1#32 2#8) legalState = .next t) ∧ (∃ t, exec (.crc32c 1#32 2#8) legalState = .next t) ∧
    (∀ st byte, Instr.larson32 1#32 2#8 ≠ .crc32c st byte) :=
  ⟨⟨_, rfl⟩, ⟨_, rfl⟩, fun _ _ h => nomatch h⟩

/-- With a valid cache and an answer already given. -/
theorem test_witness_StepKeepsUnitInvariant : ∃ t,
    UnitInv { legalState with capValid := true, capHw := Config.hwCrcPresent,
                              answers := [⟨⟨0, legalRequest⟩, ⟨0x9A7#64, false⟩⟩] } ∧
    step { legalState with capValid := true, capHw := Config.hwCrcPresent,
                           answers := [⟨⟨0, legalRequest⟩, ⟨0x9A7#64, false⟩⟩] } = .next t := by
  refine ⟨_, ⟨fun _ => rfl, fun a ha => ?_⟩, rfl⟩
  rw [List.mem_singleton.mp ha]
  rfl

theorem test_witness_ProbeRunsOnce_valid : ∃ t, (oneRequest true true ⟨0x03#8, 0, 1, 0, 0⟩).resetLine = false ∧
    (oneRequest true true ⟨0x03#8, 0, 1, 0, 0⟩).capValid = true ∧
    step (oneRequest true true ⟨0x03#8, 0, 1, 0, 0⟩) = .next t := ⟨_, rfl, rfl, rfl⟩

theorem test_witness_ProbeRunsOnce_probing : ∃ t, (oneRequest false false ⟨0x03#8, 0, 1, 0, 0⟩).resetLine = false ∧
    (oneRequest false false ⟨0x03#8, 0, 1, 0, 0⟩).capValid = false ∧
    step (oneRequest false false ⟨0x03#8, 0, 1, 0, 0⟩) = .next t ∧ t.capValid = true := ⟨_, rfl, rfl, rfl, rfl⟩

theorem test_witness_ProbeRunsOnce_still_not_run : ∃ t, legalState.resetLine = false ∧ legalState.capValid = false ∧
    step legalState = .next t ∧ t.capValid = false := ⟨_, rfl, rfl, rfl, rfl⟩

theorem test_witness_CacheIsUnobservable : ∃ t, core.run 1 (oneRequest false false ⟨0x03#8, 0, 1, 0, 0⟩) = .next t ∧
    t.answers ≠ [] := ⟨_, rfl, by decide⟩

theorem test_witness_ResponsesComeInIssueOrder : ∃ t, legalState.resetLine = false ∧ step legalState = .next t ∧
    t.answers ≠ [] := ⟨_, rfl, rfl, by decide⟩

theorem test_witness_EveryRequestGetsItsOneResponse : twoRequests.resetLine = false ∧
    twoRequests.pending.length = 2 := by decide

/-- The second of two requests, behind one that is older, with two more issued in the first turn. -/
theorem test_witness_NoRequestIsPassedOverForEver : twoRequests.resetLine = false ∧
    twoRequests.pending = [⟨⟨0, legalRequest⟩, 5⟩] ++ ⟨⟨1, ⟨0x03#8, 0, 1, 0, 0⟩⟩, 5⟩ :: [] ∧
    1 + 5 < ([[(0, legalRequest), (2, reservedRequest)], [], [], [], [], [], []] : List (List (Nat × Request))).length := by
  decide

/-- A request whose patience is at an end is served before an older one of another requester (R268, log entry 21). -/
theorem test_patience_at_an_end :
    chosenRequester 1 ⟨⟨0, legalRequest⟩, 5⟩ [⟨⟨1, reservedRequest⟩, 0⟩] = 1 := by decide

/-- The first and the last legal byte, and reserved bytes beside them. -/
theorem test_witness_LegalBytesAreTheNineteen :
    (∃ i, decode ⟨0x00#8, 0, 0, 0, 0⟩ = .ok i) ∧ (∃ i, decode ⟨0x35#8, 0, 0, 0, 0⟩ = .ok i) ∧
    decode ⟨0x36#8, 0, 0, 0, 0⟩ = .error .iwWithoutHint ∧ decode ⟨0x0A#8, 0, 0, 0, 0⟩ = .error .opUnassigned :=
  ⟨⟨_, rfl⟩, ⟨_, rfl⟩, rfl, rfl⟩

theorem test_witness_UnreadPortBitsAreIgnored :
    readPart ⟨0x00#8, 0xFFFFFFFF00000041, 0x1F42, 7, 8⟩ = readPart legalRequest ∧
    (⟨0x00#8, 0xFFFFFFFF00000041, 0x1F42, 7, 8⟩ : Request) ≠ legalRequest := by decide

theorem test_witness_EncodeInvertsDecode : decode ⟨0x00#8, 0xFFFFFFFF00000041, 0x1F42, 7, 8⟩ =
    .ok (.larson32 0x41#32 0x42#8) := by decide

theorem test_witness_PackedResponseFields : cmdW (encode (.hint32I64 0xFFFFFFFFFFFFFFFF#64 0#32)).cmd = 0 := by decide

theorem test_witness_FnvPrimeLowHalfActs :
    (0x01000193#64).toNat % 2 ^ 32 = (0xFFFFFFFF01000193#64).toNat % 2 ^ 32 := by decide

theorem test_witness_ByteStepsAreBijections : fnvPrime64.toNat % 2 = 1 ∧ (1#64).toNat % 2 = 1 := by decide

theorem test_witness_SeedIsAnXorMask : (0x2A#32 ≠ 0 ∧ 0x2A#32 ^^^ 0xDEADBEEF#32 ≠ 0) ∧
    (0x2A#64 ≠ 0 ∧ 0x2A#64 ^^^ 0xDEADBEEF#64 ≠ 0) := by decide

theorem test_witness_FinalizerIsABijection : wangC1.toNat % 2 = 1 ∧ wangC2.toNat % 2 = 1 := by decide

theorem test_witness_CombineLaws : Params.defaults.combC1.toNat % 2 = 1 ∧ Params.defaults.combC2.toNat % 2 = 1 ∧
    fnvPrime32.toNat % 2 = 1 ∧ fnvPrime64.toNat % 2 = 1 := by decide

/-- The clauses' boundaries: table sizes 0, 1, 2^32 and 2^63. -/
theorem test_witness_SeedMixResultIsBelowTableSize :
    (1#64 ≠ 0 ∧ (1#64).toNat = 2 ^ 0) ∧ (32 ≤ 63 ∧ (0x100000000#64).toNat = 2 ^ 32) ∧
    (63 ≤ 63 ∧ (0x8000000000000000#64).toNat = 2 ^ 63) ∧ 0#64 = 0 := by decide

theorem test_witness_NarrowSeedMixIgnoresHighHalves :
    trunc32 0x2545F4914F6CDD1D#64 = trunc32 0x4F6CDD1D#64 := by decide

theorem test_witness_FoldRunsOnTheUnit : twoRequests.resetLine = false ∧ ([0x41#8, 0x42#8] : List Byte) ≠ [] ∧
    (0x03#8, crc32cStep) ∈ [(0x00#8, larsonStep32), (0x02#8, fnv1adStep32), (0x03#8, crc32cStep), (0x04#8, crc32cStep)] ∧
    (0x10#8, larsonStep64) ∈ [(0x10#8, larsonStep64), (0x12#8, fnv1adStep64)] :=
  ⟨rfl, by decide, by simp, by simp⟩

theorem test_witness_ErrResultMayNotBeUsed : { legalState with pending := [] }.resetLine = false ∧
    commandLegal 0x45#8 = false ∧ { legalState with pending := [] }.pending = [] := by decide

theorem test_witness_DroppedRequestGetsNoResponse : (legalState.assertReset).resetLine = true := rfl

/-- Both zeros; a quiet and a signalling NaN, the smallest and the largest pattern. -/
theorem test_witness_FloatHashNormalises :
    ((0#32).toNat % 2 ^ 31 = 0 ∧ (0x80000000#32).toNat % 2 ^ 31 = 0) ∧
    (0x8000000000000000#64).toNat % 2 ^ 63 = 0 ∧
    ((0x7F800001#32).toNat / 2 ^ 23 % 2 ^ 8 = 255 ∧ (0x7F800001#32).toNat % 2 ^ 23 ≠ 0) ∧
    ((0xFFFFFFFF#32).toNat / 2 ^ 23 % 2 ^ 8 = 255 ∧ (0xFFFFFFFF#32).toNat % 2 ^ 23 ≠ 0) ∧
    ((0x7FF0000000000001#64).toNat / 2 ^ 52 % 2 ^ 11 = 2047 ∧ (0x7FF0000000000001#64).toNat % 2 ^ 52 ≠ 0) ∧
    ((0xFFFFFFFFFFFFFFFF#64).toNat / 2 ^ 52 % 2 ^ 11 = 2047 ∧ (0xFFFFFFFFFFFFFFFF#64).toNat % 2 ^ 52 ≠ 0) := by
  decide

end Sys2Proof.Tests
end

/-! PROOFS. The two reversible moves of the finalizers and mixes, at every width: `x ^= x >> k` and a product by an odd
constant. -/

namespace Sys2Proof.Machine

@[simp] theorem xorShiftRight_zero {n : Nat} (k : Nat) : xorShiftRight k (0#n) = 0#n := by
  simp [xorShiftRight]

theorem xorShiftRight_xor {n : Nat} (k : Nat) (x y : BitVec n) :
    xorShiftRight k (x ^^^ y) = xorShiftRight k x ^^^ xorShiftRight k y := by
  rw [xorShiftRight, xorShiftRight, xorShiftRight, BitVec.ushiftRight_xor_distrib]
  ac_rfl

/-- A word equal to its own proper right shift is 0. -/
theorem eq_zero_of_eq_ushiftRight {n k : Nat} (hk : 0 < k) {x : BitVec n} (h : x = x >>> k) : x = 0#n := by
  have hdiv : x.toNat = x.toNat / 2 ^ k := by
    simpa [Nat.shiftRight_eq_div_pow] using congrArg BitVec.toNat h
  by_contra hx
  have hpos : 0 < x.toNat := BitVec.toNat_pos_of_ne_zero hx
  exact (Nat.div_lt_self hpos (Nat.one_lt_two_pow hk.ne')).ne hdiv.symm

/-- `xorShiftRight k` is linear over XOR, and its kernel is 0. -/
theorem xorShiftRight_bijective {n k : Nat} (hk : 0 < k) :
    Function.Bijective (xorShiftRight k : BitVec n → BitVec n) := by
  refine Finite.injective_iff_bijective.mp fun x y hxy => ?_
  have hker : xorShiftRight k (x ^^^ y) = 0#n := by
    rw [xorShiftRight_xor, hxy, BitVec.xor_self]
  exact BitVec.xor_eq_zero_iff.mp (eq_zero_of_eq_ushiftRight hk (BitVec.xor_eq_zero_iff.mp hker))

theorem mul_odd_bijective {n : Nat} {c : BitVec n} (hc : c.toNat % 2 = 1) :
    Function.Bijective (fun x : BitVec n => x * c) := by
  refine Finite.injective_iff_bijective.mp fun x y hxy => ?_
  have hcoprime : (2 ^ n).Coprime c.toNat :=
    (Nat.coprime_two_left.mpr (Nat.odd_iff.mpr hc)).pow_left n
  have hmod : x.toNat * c.toNat ≡ y.toNat * c.toNat [MOD 2 ^ n] := by
    simpa [Nat.ModEq] using congrArg BitVec.toNat hxy
  exact BitVec.eq_of_toNat_eq
    ((Nat.ModEq.cancel_right_of_coprime hcoprime hmod).eq_of_lt_of_lt x.isLt y.isLt)

end Sys2Proof.Machine

/-! PROOFS. The statements of spec/00_scope.md: the two forms of the CRC32-C polynomial (R9) and the finalizer (R23). -/

namespace Sys2Proof.Machine

/-- One CRC32-C round in normal form: shift left, test the top bit (spec/00_scope.md R9). -/
def crcRoundNormal (s : Word32) : Word32 := (s <<< 1) ^^^ (if s.getLsbD 31 then crc32cPolyNormal else 0#32)

theorem crc32cPolyNormal_reverse : crc32cPolyNormal.reverse = crc32cPolyReflected := by
  have hbits : ∀ i < 32, crc32cPolyNormal.getMsbD i = crc32cPolyReflected.getLsbD i := by decide
  exact BitVec.eq_of_getLsbD_eq fun i hi => BitVec.getLsbD_reverse.trans (hbits i hi)

theorem crc32cPolyReflected_reverse : crc32cPolyReflected.reverse = crc32cPolyNormal := by
  rw [← crc32cPolyNormal_reverse, BitVec.reverse_reverse_eq]

theorem reverse_xor {n : Nat} (x y : BitVec n) : (x ^^^ y).reverse = x.reverse ^^^ y.reverse := by
  ext i hi
  simp only [BitVec.getElem_reverse, BitVec.getElem_xor, BitVec.getMsbD_xor]

theorem reverse_ushiftRight {n : Nat} (x : BitVec n) (k : Nat) : (x >>> k).reverse = x.reverse <<< k := by
  ext i hi
  simp [BitVec.getElem_reverse, BitVec.getElem_shiftLeft, BitVec.getMsbD_ushiftRight, hi]

theorem reverse_crcRound (s : Word32) : (crcRound s).reverse = crcRoundNormal s.reverse := by
  have hbit : s.reverse.getLsbD 31 = s.getLsbD 0 := BitVec.getLsbD_reverse
  rw [crcRound, crcRoundNormal, reverse_xor, reverse_ushiftRight, hbit]
  split
  · rw [crc32cPolyReflected_reverse]
  · rw [BitVec.reverse_eq_zero_iff.mpr rfl]

theorem crcRounds_eq_iterate (n : Nat) (s : Word32) : crcRounds n s = crcRound^[n] s := by
  induction n generalizing s with
  | zero => rfl
  | succ n ih => exact ih (crcRound s)

theorem reverse_crcRounds (n : Nat) (s : Word32) : (crcRounds n s).reverse = crcRoundNormal^[n] s.reverse := by
  have hround : Function.Semiconj BitVec.reverse crcRound crcRoundNormal := reverse_crcRound
  rw [crcRounds_eq_iterate, hround.iterate_right n s]

/-- Settles O41: bit reversal turns each round into the normal-form round, and so all eight. -/
theorem crcPolynomialFormsAgree : Obligations.CrcPolynomialFormsAgree :=
  ⟨crc32cPolyNormal_reverse, fun st byte => reverse_crcRounds 8 (st ^^^ byteTo32 byte)⟩

theorem fmix64_zero (c1 c2 : Word64) : fmix64 0 c1 c2 = 0 := by
  simp [fmix64]

/-- Each of the finalizer's five moves is a bijection. -/
theorem fmix64_bijective {c1 c2 : Word64} (h1 : c1.toNat % 2 = 1) (h2 : c2.toNat % 2 = 1) :
    Function.Bijective (fun x => fmix64 x c1 c2) :=
  have hshift : Function.Bijective (xorShiftRight 33 : Word64 → Word64) := xorShiftRight_bijective (by decide)
  hshift.comp ((mul_odd_bijective h2).comp (hshift.comp ((mul_odd_bijective h1).comp hshift)))

/-- Settles O49: the finalizer fixes 0, and odd multipliers make each of its moves reversible. -/
theorem finalizerIsABijection : Obligations.FinalizerIsABijection :=
  ⟨fmix64_zero, fun _ _ => fmix64_bijective⟩

end Sys2Proof.Machine

/-! PROOFS. The statements of spec/10_state.md: what a step runs (R30), what it leaves in the capability cache (R33, R34)
and in the answers (R71, R231), and that no run can observe the cache (R39). -/

namespace Sys2Proof.Machine

/-! ### The branches of a step -/

theorem select_of_pending_singleton {s : State} {p : Waiting} (hp : s.pending = [p]) :
    select s = some { s with pending := [], serving := p.issued } := by
  simp [select, hp, takeOldest, drawsAfterChoice]

theorem serve_of_decode_ok {s : State} {i : Instr} (hd : decode s.serving.req = .ok i) : serve s = exec i s := by
  simp only [serve, hd]

theorem serve_of_decode_error {s : State} {e : Reserved} (hd : decode s.serving.req = .error e) :
    serve s = .next (answerReserved s) := by
  simp only [serve, hd]

theorem step_of_resetLine {s : State} (hr : s.resetLine = true) : step s = .next (performReset s) := by
  simp only [step, hr, if_true]

theorem step_of_select_none {s : State} (hr : s.resetLine = false) (hs : select s = none) : step s = .next s := by
  simp [step, hr, hs]

theorem step_of_select_some {s u : State} (hr : s.resetLine = false) (hs : select s = some u) : step s = serve u := by
  simp [step, hr, hs]

/-- Settles O3: a request taken, alone or by `select`, is served by the meaning of what it decodes to. -/
theorem stepRunsTheDecodedRequest : Obligations.StepRunsTheDecodedRequest := by
  refine ⟨fun s p i hr hp hd => ?_, fun s t i hr hs hd => ?_⟩
  · rw [step_of_select_some hr (select_of_pending_singleton hp)]
    exact serve_of_decode_ok hd
  · rw [step_of_select_some hr hs, serve_of_decode_ok hd]

/-! ### The capability cache -/

/-- Settles O6: an operation delivers its answer to the state, in which `CRC32C` alone has written the cache. -/
theorem operationFrame : Obligations.OperationFrame := by
  intro i s t h
  obtain rfl := Host.Outcome.next.inj ((exec_eq i s).symm.trans h)
  refine ⟨fun hi => ?_, by simp⟩
  rcases beforeAnswer_cache i s with hsame | ⟨⟨st, byte, hcrc⟩, -⟩
  · exact hsame
  · exact absurd hcrc (hi st byte)

theorem mem_opTable_of_rowOf {cmd : BitVec 8} {row : OpRow} (h : rowOf cmd = some row) :
    row ∈ opTable ∧ row.cmd = cmd := by
  unfold rowOf at h
  exact ⟨List.mem_of_find?_eq_some h, by simpa using List.find?_some h⟩

/-- A legal request is decoded by a row of the opcode map for its command byte (spec/30_encoding.md R78). -/
theorem exists_row_of_decode_ok {q : Request} {i : Instr} (h : decode q = .ok i) :
    ∃ row ∈ opTable, row.cmd = q.cmd ∧ row.build q = i := by
  unfold decode at h
  split at h
  · rename_i row hrow
    obtain ⟨hmem, hcmd⟩ := mem_opTable_of_rowOf hrow
    exact ⟨row, hmem, hcmd, Except.ok.inj h⟩
  · cases h

theorem cmd_of_decode_crc32c {q : Request} {st : Word32} {byte : Byte} (h : decode q = .ok (.crc32c st byte)) :
    q.cmd = 0x03#8 := by
  obtain ⟨row, hmem, hcmd, hbuild⟩ := exists_row_of_decode_ok h
  have hrow : ∀ row ∈ opTable, row.build q = .crc32c st byte → row.cmd = 0x03#8 := by
    simp [opTable, byteStepRows, hashRows, seedMixRows]
  exact hcmd ▸ hrow row hmem hbuild

/-- All that a step without reset can do to the cache: leave it, or probe it for a `CRC32C` request
(spec/41_primitive_mixers.md R111). -/
theorem step_cache {s t : State} (hr : s.resetLine = false) (h : step s = .next t) :
    (t.capValid = s.capValid ∧ t.capHw = s.capHw) ∨
    (t.serving.req.cmd = 0x03#8 ∧ t.capValid = true ∧
      t.capHw = if s.capValid then s.capHw else Config.hwCrcPresent) := by
  rcases step_cases s with ⟨hreset, -⟩ | ⟨-, -, hs⟩ |
    ⟨-, -, u, -, -, -, hvalid, hhw, -, -, ⟨i, hd, hs⟩ | ⟨e, -, hs⟩⟩
  · cases hr.symm.trans hreset
  · obtain rfl := Host.Outcome.next.inj (hs.symm.trans h)
    exact .inl ⟨rfl, rfl⟩
  · obtain rfl := Host.Outcome.next.inj (hs.symm.trans h)
    rw [← hvalid, ← hhw]
    rcases beforeAnswer_cache i u with hsame | ⟨⟨st, byte, rfl⟩, hprobed⟩
    · exact .inl hsame
    · exact .inr ⟨by simpa using cmd_of_decode_crc32c hd, hprobed⟩
  · obtain rfl := Host.Outcome.next.inj (hs.symm.trans h)
    exact .inl ⟨hvalid, hhw⟩

/-- Settles O9, from the two things a step can do to the cache. -/
theorem probeRunsOnce : Obligations.ProbeRunsOnce := by
  intro s t hr h
  rcases step_cache hr h with ⟨hvalid, hhw⟩ | ⟨hcmd, hvalid, hhw⟩
  · exact ⟨fun hs => ⟨hvalid.trans hs, hhw⟩, fun hs ht => Bool.noConfusion (ht.symm.trans (hvalid.trans hs)),
      fun _ _ => hhw⟩
  · exact ⟨fun hs => ⟨hvalid, hhw.trans (if_pos hs)⟩, fun hs _ => ⟨hcmd, hhw.trans (if_neg (by simp [hs]))⟩,
      fun _ ht => Bool.noConfusion (ht.symm.trans hvalid)⟩

/-! ### The unit's invariant -/

theorem rightAnswer_of_decode_ok {a : Answer} {i : Instr} (hd : decode a.issued.req = .ok i)
    (hr : a.rsp = ⟨resultOf Config.params i, false⟩) : RightAnswer a := by
  simpa only [RightAnswer, hd] using hr

theorem rightAnswer_of_decode_error {a : Answer} {e : Reserved} (hd : decode a.issued.req = .error e)
    (hr : a.rsp.err = true) : RightAnswer a := by
  simpa only [RightAnswer, hd] using hr

/-- All that a step can do to the answers: keep them, or give one more, the right one. -/
theorem step_answers {s t : State} (h : step s = .next t) :
    t.answers = s.answers ∨ ∃ a, RightAnswer a ∧ t.answers = s.answers ++ [a] := by
  rcases step_cases s with ⟨-, hs⟩ | ⟨-, -, hs⟩ |
    ⟨-, -, u, -, -, -, -, -, hans, -, ⟨i, hd, hs⟩ | ⟨e, hd, hs⟩⟩ <;>
    obtain rfl := Host.Outcome.next.inj (hs.symm.trans h)
  · exact .inl (performReset_answers s)
  · exact .inl rfl
  · exact .inr ⟨⟨u.serving, _⟩, rightAnswer_of_decode_ok hd rfl, by simp [hans]⟩
  · exact .inr ⟨⟨u.serving, errResponse u.draws⟩, rightAnswer_of_decode_error hd rfl, by simp [hans]⟩

theorem step_keeps_answersRight {s t : State} (hs : AnswersRight s) (h : step s = .next t) : AnswersRight t := by
  rcases step_answers h with hans | ⟨a, ha, hans⟩
  · rwa [AnswersRight, hans]
  · rw [AnswersRight, hans]
    exact List.forall_mem_append.mpr ⟨hs, List.forall_mem_singleton.mpr ha⟩

theorem step_keeps_cacheSound {s t : State} (hs : CacheSound s) (h : step s = .next t) : CacheSound t := by
  intro ht
  cases hr : s.resetLine with
  | true =>
    obtain rfl := Host.Outcome.next.inj ((step_of_resetLine hr).symm.trans h)
    simp at ht
  | false =>
    rcases step_cache hr h with ⟨hvalid, hhw⟩ | ⟨-, -, hhw⟩
    · exact hhw.trans (hs (hvalid.symm.trans ht))
    · rw [hhw]
      split
      · exact hs ‹_›
      · rfl

/-- Settles O7: each half of the invariant is kept by every step. -/
theorem stepKeepsUnitInvariant : Obligations.StepKeepsUnitInvariant :=
  fun _ _ ⟨hcache, hans⟩ h => ⟨step_keeps_cacheSound hcache h, step_keeps_answersRight hans h⟩

/-- Settles O8: after reset the cache is not valid, and no answer has been given. -/
theorem resetMeetsUnitInvariant : Obligations.ResetMeetsUnitInvariant :=
  ⟨fun h => Bool.noConfusion h, fun _ h => absurd h List.not_mem_nil⟩

/-! ### No run observes the cache (R39): a run and the run from another cache stay equal but for the cache -/

@[simp] theorem withCache_withCache (v h v' h' : Bool) (s : State) :
    withCache v h (withCache v' h' s) = withCache v h s := rfl

theorem deliver_withCache (p : Response) (v h : Bool) (s : State) :
    deliver p (withCache v h s) = withCache v h (deliver p s) := rfl

theorem answerReserved_withCache (v h : Bool) (s : State) :
    answerReserved (withCache v h s) = withCache v h (answerReserved s) := rfl

/-- Reset puts both bits, whatever they were. -/
theorem performReset_withCache (v h : Bool) (s : State) : performReset (withCache v h s) = performReset s := rfl

theorem select_withCache (v h : Bool) (s : State) : select (withCache v h s) = (select s).map (withCache v h) := by
  simp only [select, withCache_pending]
  cases s.pending <;> rfl

/-- The probe writes the cache alone. -/
theorem probe_eq_withCache (s : State) : ∃ v h, probe s = withCache v h s := by
  unfold probe
  split
  · exact ⟨s.capValid, s.capHw, rfl⟩
  · exact ⟨true, Config.params.hwCrcPresent, rfl⟩

theorem beforeAnswer_eq_withCache (i : Instr) (s : State) : ∃ v h, beforeAnswer i s = withCache v h s := by
  cases i with
  | crc32c st byte => exact probe_eq_withCache s
  | _ => exact ⟨s.capValid, s.capHw, rfl⟩

theorem beforeAnswer_withCache (i : Instr) (v h : Bool) (s : State) :
    ∃ v' h', beforeAnswer i (withCache v h s) = withCache v' h' (beforeAnswer i s) := by
  obtain ⟨v₁, h₁, hleft⟩ := beforeAnswer_eq_withCache i (withCache v h s)
  obtain ⟨v₂, h₂, hright⟩ := beforeAnswer_eq_withCache i s
  exact ⟨v₁, h₁, by rw [hleft, hright, withCache_withCache, withCache_withCache]⟩

/-- An operation gives the same answer from any cache: its result is a function of the instruction (R110 b). -/
theorem exec_withCache {i : Instr} {s t : State} (v h : Bool) (he : exec i s = .next t) :
    ∃ v' h', exec i (withCache v h s) = .next (withCache v' h' t) := by
  obtain rfl := Host.Outcome.next.inj ((exec_eq i s).symm.trans he)
  obtain ⟨v', h', hbefore⟩ := beforeAnswer_withCache i v h s
  exact ⟨v', h', by rw [exec_eq, hbefore, deliver_withCache]⟩

theorem serve_withCache {s t : State} (v h : Bool) (hs : serve s = .next t) :
    ∃ v' h', serve (withCache v h s) = .next (withCache v' h' t) := by
  cases hd : decode s.serving.req with
  | ok i =>
    rw [serve_of_decode_ok hd] at hs
    rw [serve_of_decode_ok (s := withCache v h s) hd]
    exact exec_withCache v h hs
  | error e =>
    obtain rfl := Host.Outcome.next.inj ((serve_of_decode_error hd).symm.trans hs)
    exact ⟨v, h, serve_of_decode_error (s := withCache v h s) hd⟩

/-- The simulation: a step and the step from another cache lead to states that differ in the cache alone. -/
theorem step_withCache {s t : State} (v h : Bool) (hs : step s = .next t) :
    ∃ v' h', step (withCache v h s) = .next (withCache v' h' t) := by
  cases hr : s.resetLine with
  | true =>
    obtain rfl := Host.Outcome.next.inj ((step_of_resetLine hr).symm.trans hs)
    exact ⟨_, _, step_of_resetLine (s := withCache v h s) hr⟩
  | false =>
    cases hsel : select s with
    | none =>
      obtain rfl := Host.Outcome.next.inj ((step_of_select_none hr hsel).symm.trans hs)
      exact ⟨v, h, step_of_select_none (s := withCache v h s) hr (by rw [select_withCache, hsel, Option.map_none])⟩
    | some u =>
      rw [step_of_select_some hr hsel] at hs
      rw [step_of_select_some (s := withCache v h s) hr (by rw [select_withCache, hsel, Option.map_some])]
      exact serve_withCache v h hs

theorem run_succ_of_step {n : Nat} {s u : State} (h : step s = .next u) : core.run (n + 1) s = core.run n u := by
  have hcore : core.step s = .next u := h
  simp only [Host.Core.run, hcore]

theorem step_total (s : State) : ∃ t, step s = .next t := by
  rcases step_cases s with ⟨-, hs⟩ | ⟨-, -, hs⟩ | ⟨-, -, u, -, -, -, -, -, -, -, ⟨i, -, hs⟩ | ⟨e, -, hs⟩⟩ <;>
    exact ⟨_, hs⟩

theorem run_withCache {n : Nat} {s t : State} (v h : Bool) (hrun : core.run n s = .next t) :
    ∃ v' h', core.run n (withCache v h s) = .next (withCache v' h' t) := by
  induction n generalizing s v h with
  | zero =>
    obtain rfl := Host.Outcome.next.inj hrun
    exact ⟨v, h, rfl⟩
  | succ n ih =>
    obtain ⟨u, hstep⟩ := step_total s
    obtain ⟨v', h', hstep'⟩ := step_withCache v h hstep
    rw [run_succ_of_step hstep] at hrun
    rw [run_succ_of_step hstep']
    exact ih v' h' hrun

/-- Settles O10: the simulation holds of any number of steps, and answers and outstanding requests are no part of the
cache. -/
theorem cacheIsUnobservable : Obligations.CacheIsUnobservable := by
  intro n s t valid hw hrun
  obtain ⟨v, h, hrun'⟩ := run_withCache valid hw hrun
  exact ⟨withCache v h t, hrun', withCache_answers v h t, withCache_pending v h t⟩

end Sys2Proof.Machine

/-! PROOFS. The statements of spec/20_memory.md: the order of a requester's answers (R57), and a `FOLD` run as requests
to the unit (R54, spec/30_encoding.md R83). -/

namespace Sys2Proof.Machine

/-! ### One request is answered by a step, and each requester's history stays as it is -/

/-- All that a step without reset does when something is outstanding: it gives one answer, the right one, to a request
of which its requester has no older one. -/
theorem step_answers_one {s : State} (hr : s.resetLine = false) (hp : s.pending ≠ []) :
    ∃ t a, step s = .next t ∧ t.resetLine = false ∧ t.answers = s.answers ++ [a] ∧ RightAnswer a ∧
      (a.issued :: t.outstanding).Perm s.outstanding ∧
      ∀ k, (a.issued :: t.outstanding).filter (fun x => x.requester == k) =
        s.outstanding.filter (fun x => x.requester == k) := by
  rcases step_cases s with ⟨hreset, -⟩ | ⟨-, hnone, -⟩ |
    ⟨-, -, u, -, hperm, hfilter, -, -, hans, hline, ⟨i, hd, hs⟩ | ⟨e, hd, hs⟩⟩
  · cases hr.symm.trans hreset
  · exact absurd hnone hp
  · exact ⟨_, ⟨u.serving, ⟨resultOf Config.params i, false⟩⟩, hs, by simp [hline], by simp [hans],
      rightAnswer_of_decode_ok hd rfl, by simpa using hperm, by simpa using hfilter⟩
  · exact ⟨_, ⟨u.serving, errResponse u.draws⟩, hs, by simp [hline], by simp [hans],
      rightAnswer_of_decode_error hd rfl, by simpa using hperm, by simpa using hfilter⟩

theorem step_of_pending_nil {s : State} (hr : s.resetLine = false) (hp : s.pending = []) : step s = .next s :=
  step_of_select_none hr (by simp [select, hp])

/-- A requester's answered requests, then its outstanding ones, each with its requester's number (R57). -/
def issuedHistory (r : Nat) (s : State) : List Issued := (answersTo r s).map Answer.issued ++ outstandingOf r s

theorem historyOf_eq_map (r : Nat) (s : State) : historyOf r s = (issuedHistory r s).map Issued.req := by
  simp [historyOf, issuedHistory, Function.comp_def]

/-- The request answered leaves the head of its requester's outstanding ones for the end of the answered ones. -/
theorem issuedHistory_of_answered {s t : State} {a : Answer} {r : Nat} (hans : t.answers = s.answers ++ [a])
    (hfilter : (a.issued :: t.outstanding).filter (fun x => x.requester == r) =
      s.outstanding.filter (fun x => x.requester == r)) : issuedHistory r t = issuedHistory r s := by
  rw [issuedHistory, issuedHistory, outstandingOf, outstandingOf, answersTo, answersTo, hans, ← hfilter]
  by_cases ha : a.issued.requester = r <;> simp [ha]

theorem step_keeps_issuedHistory {s t : State} (hr : s.resetLine = false) (h : step s = .next t) (r : Nat) :
    issuedHistory r t = issuedHistory r s := by
  by_cases hp : s.pending = []
  · obtain rfl := Host.Outcome.next.inj ((step_of_pending_nil hr hp).symm.trans h)
    rfl
  · obtain ⟨t', a, hs, -, hans, -, -, hfilter⟩ := step_answers_one hr hp
    obtain rfl := Host.Outcome.next.inj (hs.symm.trans h)
    exact issuedHistory_of_answered hans (hfilter r)

/-- Settles O11: a step takes a requester's oldest request and puts its answer last. -/
theorem responsesComeInIssueOrder : Obligations.ResponsesComeInIssueOrder := by
  intro s t hr h r
  rw [historyOf_eq_map, historyOf_eq_map, step_keeps_issuedHistory hr h r]

/-! ### A host that asks gets the response to its own request -/

theorem awaitAnswer_of_step {r k fuel : Nat} {s t : State} (hnone : (answersTo r s)[k]? = none)
    (hs : step s = .next t) : awaitAnswer r k (fuel + 1) s = awaitAnswer r k fuel t := by
  simp only [awaitAnswer, hnone, hs]

/-- Answer number `k` to a requester, if it is there, is right. -/
def AnswerRightAt (r k : Nat) (s : State) : Prop := ∀ a, (answersTo r s)[k]? = some a → RightAnswer a

/-- The answer a step gives is right, so number `k` stays right or comes to be there and right. -/
theorem answerRightAt_of_answered {r k : Nat} {s t : State} {a : Answer} (hright : AnswerRightAt r k s)
    (hans : t.answers = s.answers ++ [a]) (ha : RightAnswer a) : AnswerRightAt r k t := by
  intro b hb
  rw [answersTo, hans, List.filter_append, List.getElem?_append] at hb
  split at hb
  · exact hright b hb
  · have hmem := List.mem_of_mem_filter (List.mem_of_getElem? hb)
    rwa [List.mem_singleton.mp hmem]

theorem issuedHistory_getElem?_of_answered {r k : Nat} {s : State} {a : Answer}
    (ha : (answersTo r s)[k]? = some a) : (issuedHistory r s)[k]? = some a.issued := by
  have hk : k < ((answersTo r s).map Answer.issued).length := by
    simpa using (List.getElem?_eq_some_iff.mp ha).1
  rw [issuedHistory, List.getElem?_append_left hk, List.getElem?_map, ha, Option.map_some]

/-- The wait is over at once when answer number `k` is there, whatever the fuel. -/
theorem awaitAnswer_of_answered {r k : Nat} {s : State} {a : Answer} {x : Issued} (fuel : Nat)
    (hr : s.resetLine = false) (hx : (issuedHistory r s)[k]? = some x) (hright : AnswerRightAt r k s)
    (ha : (answersTo r s)[k]? = some a) :
    ∃ t p, awaitAnswer r k fuel s = some (t, p) ∧ t.resetLine = false ∧ RightAnswer ⟨x, p⟩ := by
  obtain rfl := Option.some.inj ((issuedHistory_getElem?_of_answered ha).symm.trans hx)
  refine ⟨s, a.rsp, ?_, hr, hright a ha⟩
  cases fuel <;> simp [awaitAnswer, ha]

/-- A place of the history that has no answer yet is that of an outstanding request. -/
theorem pending_ne_nil_of_unanswered {r k : Nat} {s : State} {x : Issued} (hx : (issuedHistory r s)[k]? = some x)
    (hnone : (answersTo r s)[k]? = none) : s.pending ≠ [] := by
  intro hp
  simp [issuedHistory, outstandingOf, State.outstanding, hp, hnone] at hx

/-- Steps enough for all that is outstanding bring the answer to the request at place `k` of the requester's history. -/
theorem awaitAnswer_of_issuedHistory {r k fuel : Nat} {s : State} {x : Issued} (hr : s.resetLine = false)
    (hfuel : s.pending.length ≤ fuel) (hx : (issuedHistory r s)[k]? = some x) (hright : AnswerRightAt r k s) :
    ∃ t p, awaitAnswer r k fuel s = some (t, p) ∧ t.resetLine = false ∧ RightAnswer ⟨x, p⟩ := by
  induction fuel generalizing s with
  | zero =>
    cases hk : (answersTo r s)[k]? with
    | some a => exact awaitAnswer_of_answered 0 hr hx hright hk
    | none => exact absurd (List.length_eq_zero_iff.mp (Nat.le_zero.mp hfuel)) (pending_ne_nil_of_unanswered hx hk)
  | succ fuel ih =>
    cases hk : (answersTo r s)[k]? with
    | some a => exact awaitAnswer_of_answered (fuel + 1) hr hx hright hk
    | none =>
      obtain ⟨t, a, hs, hline, hans, ha, hperm, hfilter⟩ :=
        step_answers_one hr (pending_ne_nil_of_unanswered hx hk)
      have hlength : t.pending.length + 1 = s.pending.length := by
        simpa [State.outstanding] using hperm.length_eq
      rw [awaitAnswer_of_step hk hs]
      exact ih hline (by omega) ((issuedHistory_of_answered hans (hfilter r)).symm ▸ hx)
        (answerRightAt_of_answered hright hans ha)

theorem issuedHistory_issue (r : Nat) (q : Request) (s : State) :
    issuedHistory r (s.issue r q) = issuedHistory r s ++ [⟨r, q⟩] := by
  simp [issuedHistory, answersTo, outstandingOf]

/-- With reset not asserted, whatever else is outstanding, a host gets the response its request's own bits call for. -/
theorem ask_answers (r : Nat) (q : Request) {s : State} (hr : s.resetLine = false) :
    ∃ t p, ask r q s = some (t, p) ∧ t.resetLine = false ∧ RightAnswer ⟨⟨r, q⟩, p⟩ := by
  have hlength : (answersTo r s).length + (outstandingOf r s).length = (issuedHistory r s).length := by
    simp [issuedHistory]
  refine awaitAnswer_of_issuedHistory (by simpa using hr) (by simp) ?_ ?_
  · rw [issuedHistory_issue, hlength, List.getElem?_concat_length]
  · intro a ha
    have hunanswered : (answersTo r s).length ≤ (answersTo r s).length + (outstandingOf r s).length := by omega
    cases (List.getElem?_eq_none hunanswered).symm.trans ha

theorem ask_of_decode_ok (r : Nat) {q : Request} {i : Instr} {s : State} (hr : s.resetLine = false)
    (hd : decode q = .ok i) :
    ∃ t, ask r q s = some (t, ⟨resultOf Config.params i, false⟩) ∧ t.resetLine = false := by
  obtain ⟨t, p, hask, hline, hright⟩ := ask_answers r q hr
  obtain rfl : p = ⟨resultOf Config.params i, false⟩ := by simpa only [RightAnswer, hd] using hright
  exact ⟨t, hask, hline⟩

/-! ### A `FOLD` as a listing -/

/-- The decoder undoes the encoder: each operand comes back from its port (spec/30_encoding.md R78, R82). -/
theorem decode_encode (i : Instr) : decode (encode i) = .ok i := by
  cases i <;> exact congrArg Except.ok (by simp [encode, requestOf])

/-- `cmd` is the command of the byte step `f`, whose states stand on port `A` and in the result by `port`. -/
def IsByteStep {α : Type} (cmd : BitVec 8) (port : α → Word64) (f : α → Byte → α) : Prop :=
  (rowOf cmd).map OpRow.ports = some 2 ∧
  ∀ st byte, ∃ i, encode i = requestOf cmd (port st) (byteTo64 byte) 0 0 ∧
    resultOf Config.params i = port (f st byte)

theorem isByteStep_of_mem32 {cmd : BitVec 8} {f : Word32 → Byte → Word32}
    (h : (cmd, f) ∈ [(0x00#8, larsonStep32), (0x02#8, fnv1adStep32), (0x03#8, crc32cStep), (0x04#8, crc32cStep)]) :
    IsByteStep cmd zext64 f := by
  simp only [List.mem_cons, List.not_mem_nil, or_false, Prod.mk.injEq] at h
  obtain ⟨rfl, rfl⟩ | ⟨rfl, rfl⟩ | ⟨rfl, rfl⟩ | ⟨rfl, rfl⟩ := h
  · exact ⟨rfl, fun st byte => ⟨.larson32 st byte, rfl, rfl⟩⟩
  · exact ⟨rfl, fun st byte => ⟨.fnv1ad32 st byte, rfl, rfl⟩⟩
  · exact ⟨rfl, fun st byte => ⟨.crc32c st byte, rfl, rfl⟩⟩
  · exact ⟨rfl, fun st byte => ⟨.crc32cs st byte, rfl, rfl⟩⟩

theorem isByteStep_of_mem64 {cmd : BitVec 8} {f : Word64 → Byte → Word64}
    (h : (cmd, f) ∈ [(0x10#8, larsonStep64), (0x12#8, fnv1adStep64)]) : IsByteStep cmd id f := by
  simp only [List.mem_cons, List.not_mem_nil, or_false, Prod.mk.injEq] at h
  obtain ⟨rfl, rfl⟩ | ⟨rfl, rfl⟩ := h
  · exact ⟨rfl, fun st byte => ⟨.larson64 st byte, rfl, rfl⟩⟩
  · exact ⟨rfl, fun st byte => ⟨.fnv1ad64 st byte, rfl, rfl⟩⟩

theorem lineRequest_of_toNat (cmd : BitVec 8) (v : Word64) (byte : Byte) :
    lineRequest cmd [v.toNat, byte.toNat] = requestOf cmd v (byteTo64 byte) 0 0 := by
  simp [lineRequest, byteTo64]

theorem evalHost_result {env : List Response} {k : Nat} {v : Word64} (h : env[k]? = some ⟨v, false⟩) :
    evalHost env (.result k) = some v.toNat := by
  simp [evalHost, h]

theorem lineWellFormed_byteLine {n : Nat} {cmd : BitVec 8} {x : HostExpr} (byte : Nat)
    (hports : (rowOf cmd).map OpRow.ports = some 2) (hx : namesEarlier n x = true) :
    lineWellFormed n ⟨cmd, [x, .lit byte]⟩ = true := by
  obtain ⟨row, hrow, htwo⟩ := Option.map_eq_some_iff.mp hports
  simp [lineWellFormed, namesEarlier, hx, hrow, htwo]

theorem runListing_cons {r : Nat} {env : List Response} {l : Line} {ls : List Line} {values : List Nat} {s t : State}
    {p : Response} (hwf : lineWellFormed env.length l = true) (hv : evalOperands env l.operands = some values)
    (hask : ask r (lineRequest l.cmd values) s = some (t, p)) :
    runListing r env (l :: ls) s = runListing r (env ++ [p]) ls t := by
  simp only [runListing, hwf, hv, hask, if_true]

section
variable {α : Type} {cmd : BitVec 8} {port : α → Word64} {f : α → Byte → α}

/-- One line of a `FOLD` makes the step on the state its first operand stands for. -/
theorem runListing_byteLine (hstep : IsByteStep cmd port f) {r : Nat} {env : List Response} {x : HostExpr} {st : α}
    {s : State} (byte : Byte) (ls : List Line) (hr : s.resetLine = false) (hx : namesEarlier env.length x = true)
    (hst : evalHost env x = some (port st).toNat) :
    ∃ t, t.resetLine = false ∧ runListing r env (⟨cmd, [x, .lit byte.toNat]⟩ :: ls) s =
      runListing r (env ++ [⟨port (f st byte), false⟩]) ls t := by
  obtain ⟨hports, hmeaning⟩ := hstep
  obtain ⟨i, hencode, hresult⟩ := hmeaning st byte
  have hd : decode (lineRequest cmd [(port st).toNat, byte.toNat]) = .ok i := by
    rw [lineRequest_of_toNat, ← hencode, decode_encode]
  obtain ⟨t, hask, hline⟩ := ask_of_decode_ok r hr hd
  rw [hresult] at hask
  exact ⟨t, hline, runListing_cons (lineWellFormed_byteLine byte.toNat hports hx)
    (by simp [evalOperands, evalHost, hst]) hask⟩

/-- The responses of a `FOLD` that begins at state `st`: one per byte, and after the state itself the last of them is
the step folded over the bytes. -/
theorem runListing_foldLines (hstep : IsByteStep cmd port f) (r : Nat) (bytes : List Byte) {env : List Response}
    {x : HostExpr} {st : α} {s : State} (hr : s.resetLine = false) (hx : namesEarlier env.length x = true)
    (hst : evalHost env x = some (port st).toNat) :
    ∃ t new, runListing r env (foldLines cmd [] x env.length bytes) s = .next (t, env ++ new) ∧
      new.length = bytes.length ∧
      ((⟨port st, false⟩ : Response) :: new).getLast? = some ⟨port (bytes.foldl f st), false⟩ := by
  induction bytes generalizing env x st s with
  | nil => exact ⟨s, [], by simp [foldLines, runListing], rfl, rfl⟩
  | cons b bs ih =>
    obtain ⟨u, hline, hrun⟩ := runListing_byteLine hstep (r := r) b
      (foldLines cmd [] (.result env.length) (env.length + 1) bs) hr hx hst
    obtain ⟨t, new, hrest, hlength, hlast⟩ := ih (env := env ++ [⟨port (f st b), false⟩]) (x := .result env.length)
      (st := f st b) hline (by simp [namesEarlier]) (evalHost_result (by simp))
    refine ⟨t, ⟨port (f st b), false⟩ :: new, ?_, by simp [hlength], by simpa using hlast⟩
    rw [foldLines, hrun]
    simpa using hrest

/-- The name of a `FOLD` from a literal stands for its last response, or for the literal when there is no byte. -/
theorem evalHost_foldName {env : List Response} {bytes : List Byte} {v w : Word64}
    (hlength : env.length = bytes.length)
    (hlast : ((⟨v, false⟩ : Response) :: env).getLast? = some ⟨w, false⟩) :
    evalHost env (foldName (.lit v.toNat) 0 bytes) = some w.toNat := by
  cases bytes with
  | nil =>
    obtain rfl := List.length_eq_zero_iff.mp hlength
    obtain rfl : v = w := by simpa using hlast
    rfl
  | cons b bs =>
    refine evalHost_result ?_
    simpa [List.getLast?_eq_getElem?, hlength] using hlast

/-- A `FOLD` from a literal, run from line 0 on any state with reset not asserted. -/
theorem fold_runs (hstep : IsByteStep cmd port f) (r : Nat) (start : α) (bytes : List Byte) {s : State}
    (hr : s.resetLine = false) :
    ∃ t env, runListing r [] (foldLines cmd [] (.lit (port start).toNat) 0 bytes) s = .next (t, env) ∧
      env.length = bytes.length ∧
      (bytes ≠ [] → env.getLast? = some ⟨port (bytes.foldl f start), false⟩) ∧
      evalHost env (foldName (.lit (port start).toNat) 0 bytes) = some (port (bytes.foldl f start)).toNat := by
  obtain ⟨t, env, hrun, hlength, hlast⟩ :=
    runListing_foldLines hstep r bytes (env := []) (x := .lit (port start).toNat) hr rfl rfl
  refine ⟨t, env, hrun, hlength, fun hne => ?_, evalHost_foldName hlength hlast⟩
  have henv : env ≠ [] := by
    rwa [ne_eq, ← List.length_eq_zero_iff, hlength, List.length_eq_zero_iff]
  rwa [List.getLast?_cons_of_ne_nil henv] at hlast

end

/-- Settles O53: each line of the `FOLD` makes one step, at either width, on the result of the line before. -/
theorem foldRunsOnTheUnit : Obligations.FoldRunsOnTheUnit := by
  refine ⟨fun cmd f hf r start bytes s hr => ?_, fun cmd f hf r start bytes s hr => ?_⟩
  · simpa only [zext64_toNat] using fold_runs (isByteStep_of_mem32 hf) r start bytes hr
  · exact fold_runs (isByteStep_of_mem64 hf) r start bytes hr

end Sys2Proof.Machine

/-! PROOFS. The statements of spec/30_encoding.md: a request is answered once (R71), the packed forms (R70, R71), the
opcode map and the field rules of the command byte agree (R78, R79), the decoder and the encoder undo each other (R72,
R82), and a listing that begins with a reserved command (R82). -/

namespace Sys2Proof.Machine

/-! ### Every outstanding request is answered once -/

/-- As many steps as are outstanding answer them all, by induction on their number: each step answers one. -/
theorem run_answers_outstanding {n : Nat} {s : State} (hr : s.resetLine = false) (hn : s.pending.length = n) :
    ∃ t new, core.run n s = .next t ∧ t.pending = [] ∧ t.answers = s.answers ++ new ∧
      (new.map (fun a => a.issued)).Perm s.outstanding ∧ ∀ a ∈ new, RightAnswer a := by
  induction n generalizing s with
  | zero =>
    have hp : s.pending = [] := List.length_eq_zero_iff.mp hn
    exact ⟨s, [], rfl, hp, by simp, by simp [State.outstanding, hp], by simp⟩
  | succ n ih =>
    obtain ⟨u, a, hs, hline, hans, ha, hperm, -⟩ := step_answers_one hr (List.ne_nil_of_length_eq_add_one hn)
    have hlength : u.pending.length + 1 = s.pending.length := by
      simpa [State.outstanding] using hperm.length_eq
    obtain ⟨t, new, hrun, hp, hans', hperm', hright⟩ := ih hline (by omega)
    exact ⟨t, a :: new, (run_succ_of_step hs).trans hrun, hp, by simp [hans', hans],
      (hperm'.cons a.issued).trans hperm, List.forall_mem_cons.mpr ⟨ha, hright⟩⟩

/-- Settles O12: the number of steps is that of the outstanding requests. -/
theorem everyRequestGetsItsOneResponse : Obligations.EveryRequestGetsItsOneResponse :=
  fun _ hr => run_answers_outstanding hr rfl

/-! ### The packed forms -/

theorem ofNumber_toNat (w : BitVec 264) : Request.ofNumber w.toNat = Request.ofPacked w := rfl

/-- Adjacent fields as a number: the lower one's width is the higher one's place. -/
theorem append_toNat_eq_add {m n : Nat} (x : BitVec m) (y : BitVec n) :
    (x ++ y).toNat = x.toNat * 2 ^ n + y.toNat := by
  rw [BitVec.toNat_append, ← Nat.shiftLeft_add_eq_or_of_lt y.isLt, Nat.shiftLeft_eq]

theorem toPacked_toNat (q : Request) : q.toPacked.toNat =
    q.d.toNat * 2 ^ 200 + q.c.toNat * 2 ^ 136 + q.b.toNat * 2 ^ 72 + q.a.toNat * 2 ^ 8 + q.cmd.toNat := by
  simp only [Request.toPacked, append_toNat_eq_add]
  omega

/-- No field of a packed request reaches into the next one's place. -/
theorem ofPacked_toPacked (q : Request) : Request.ofPacked q.toPacked = q := by
  have hcmd := q.cmd.isLt
  have ha := q.a.isLt
  have hb := q.b.isLt
  have hc := q.c.isLt
  rw [← ofNumber_toNat, toPacked_toNat]
  obtain ⟨cmd, a, b, c, d⟩ := q
  simp only [Request.ofNumber, Request.mk.injEq]
  refine ⟨?_, ?_, ?_, ?_, ?_⟩
  all_goals
    apply BitVec.eq_of_toNat_eq
    simp only [BitVec.toNat_ofNat, Nat.shiftRight_eq_div_pow]
    omega

/-- The five fields leave out no bit of the 264. -/
theorem toPacked_ofPacked (w : BitVec 264) : (Request.ofPacked w).toPacked = w := by
  apply BitVec.eq_of_toNat_eq
  have hw := w.isLt
  rw [toPacked_toNat]
  simp only [Request.ofPacked, BitVec.extractLsb'_toNat, Nat.shiftRight_eq_div_pow]
  omega

/-- Settles O17: the packed form as a number, and its fields as that number's quotients and remainders. -/
theorem packedRequestFields : Obligations.PackedRequestFields :=
  ⟨toPacked_toNat, ofPacked_toPacked, toPacked_ofPacked, ofNumber_toNat⟩

/-- Settles O16: `decode_encode`, and the packed form loses no field. -/
theorem decodeInvertsEncode : Obligations.DecodeInvertsEncode := by
  refine fun i => ⟨decode_encode i, ?_⟩
  rw [decodePacked, encodePacked, ofPacked_toPacked, decode_encode]

theorem response_toPacked_toNat (p : Response) : p.toPacked.toNat = p.err.toNat * 2 ^ 64 + p.r.toNat := by
  rw [Response.toPacked, append_toNat_eq_add, BitVec.toNat_ofBool]

theorem response_ofPacked_toPacked (p : Response) : Response.ofPacked p.toPacked = p := by
  simp only [Response.ofPacked, Response.toPacked]
  rw [BitVec.extractLsb'_append_eq_right, BitVec.getLsbD_append]
  simp

theorem response_toPacked_ofPacked (w : BitVec 65) : (Response.ofPacked w).toPacked = w := by
  apply BitVec.eq_of_toNat_eq
  have hw := w.isLt
  rw [response_toPacked_toNat]
  simp only [Response.ofPacked, BitVec.getLsbD, Nat.toNat_testBit, BitVec.extractLsb'_toNat, Nat.shiftRight_eq_div_pow]
  omega

/-- An operation with `W = 0` has a 32-bit result (R71). -/
theorem resultOf_of_cmdW_zero (p : Params) {i : Instr} (hw : cmdW (encode i).cmd = 0) :
    ∃ v : Word32, resultOf p i = zext64 v := by
  cases i with
  | larson64 | fnv1a64 | fnv1ad64 | hint64 | combp64 | comb64 | smix64 | smixd64 =>
    simp [encode, requestOf, cmdW] at hw
  | _ => exact ⟨_, rfl⟩

/-- Settles O18: the two fields of a response, and the zero-extension of a 32-bit result. -/
theorem packedResponseFields : Obligations.PackedResponseFields := by
  refine ⟨response_toPacked_toNat, response_ofPacked_toPacked, response_toPacked_ofPacked, fun i hw => ?_⟩
  obtain ⟨v, hv⟩ := resultOf_of_cmdW_zero Config.params hw
  rw [hv, zext64_toNat]
  exact v.isLt

/-- Settles O19: the decoder run on each word. -/
theorem wordsOfTheSpecDecode : Obligations.WordsOfTheSpecDecode :=
  ⟨rfl, rfl, rfl, rfl, rfl, rfl, rfl, rfl⟩

/-! ### Which command bytes decode -/

/-- The opcode map (R78) and the field rules (R79) agree on every command byte. -/
theorem rowOf_isSome (cmd : BitVec 8) : (rowOf cmd).isSome = commandLegal cmd := by
  revert cmd
  decide

theorem decode_ok_iff_legal (q : Request) : (∃ i, decode q = .ok i) ↔ commandLegal q.cmd = true := by
  rw [← rowOf_isSome, decode]
  cases rowOf q.cmd <;> simp

theorem rowOf_of_not_legal {cmd : BitVec 8} (h : commandLegal cmd = false) : rowOf cmd = none := by
  rwa [← rowOf_isSome, Option.isSome_eq_false_iff, Option.isNone_iff_eq_none] at h

theorem decode_of_not_legal {q : Request} (h : commandLegal q.cmd = false) :
    decode q = .error (reservedClass q.cmd) := by
  simp only [decode, rowOf_of_not_legal h]

theorem commandLegal_iff_mem_nineteen (cmd : BitVec 8) : commandLegal cmd = true ↔ cmd.toNat ∈
    [0x00, 0x01, 0x02, 0x03, 0x04, 0x05, 0x06, 0x07, 0x08, 0x09, 0x10, 0x11, 0x12, 0x16, 0x17, 0x18, 0x19, 0x25,
      0x35] := by
  revert cmd
  decide

/-- The reserved bytes, counted for each value of `RSV` in turn. -/
theorem reserved_count : ((List.range 256).filter (fun n => !commandLegal (BitVec.ofNat 8 n))).length = 237 := by
  rw [List.range_eq_range', show 256 = 64 + (64 + (64 + 64)) from rfl]
  simp only [← List.range'_append_1, List.filter_append, List.length_append]
  decide

/-- Settles O13: the field rules agree with the opcode map and with the list, and the others are counted. -/
theorem legalBytesAreTheNineteen : Obligations.LegalBytesAreTheNineteen :=
  ⟨decode_ok_iff_legal, fun q => commandLegal_iff_mem_nineteen q.cmd, reserved_count⟩

/-! ### The bits that are read -/

@[simp] theorem zext64_hashOperand32 (port : Word64) : zext64 (hashOperand32 port) = port &&& 0xFFFFFFFF#64 := by
  apply BitVec.eq_of_toNat_eq
  rw [zext64_toNat, hashOperand32_eq_ofNat, BitVec.toNat_ofNat, BitVec.toNat_and]
  exact (Nat.and_two_pow_sub_one_eq_mod port.toNat 32).symm

@[simp] theorem byteTo64_byteOperand (port : Word64) : byteTo64 (byteOperand port) = port &&& 0xFF#64 := by
  apply BitVec.eq_of_toNat_eq
  rw [byteTo64_toNat, byteOperand_eq_ofNat, BitVec.toNat_ofNat, BitVec.toNat_and]
  exact (Nat.and_two_pow_sub_one_eq_mod port.toNat 8).symm

@[simp] theorem and_allOnes64 (port : Word64) : port &&& 0xFFFFFFFFFFFFFFFF#64 = port := BitVec.and_allOnes

/-- Each row of the opcode map reads the bits of its column "reads" and no other. -/
theorem encode_build {row : OpRow} (hrow : row ∈ opTable) (a b c d : Word64) :
    encode (row.build ⟨row.cmd, a, b, c, d⟩) = readPart ⟨row.cmd, a, b, c, d⟩ := by
  simp only [opTable, byteStepRows, hashRows, seedMixRows, List.cons_append, List.nil_append, List.mem_cons,
    List.not_mem_nil, or_false] at hrow
  rcases hrow with rfl | rfl | rfl | rfl | rfl | rfl | rfl | rfl | rfl | rfl | rfl | rfl | rfl | rfl | rfl | rfl | rfl |
    rfl | rfl <;> simp [encode, requestOf, readPart, readMasks]

/-- Settles O15, row by row of the opcode map. -/
theorem encodeInvertsDecode : Obligations.EncodeInvertsDecode := by
  intro q i h
  obtain ⟨row, hrow, hcmd, rfl⟩ := exists_row_of_decode_ok h
  obtain ⟨cmd, a, b, c, d⟩ := q
  obtain rfl : row.cmd = cmd := hcmd
  exact encode_build hrow a b c d

theorem readPart_cmd (q : Request) : (readPart q).cmd = q.cmd := by
  unfold readPart
  split <;> rfl

/-- A legal request's read part is an encoding, and a reserved command byte is rejected whatever the ports hold. -/
theorem decode_readPart (q : Request) : decode (readPart q) = decode q := by
  cases h : decode q with
  | ok i => rw [← encodeInvertsDecode q i h, decode_encode]
  | error e =>
    have hreserved : commandLegal q.cmd = false := by
      rw [← Bool.not_eq_true, ← decode_ok_iff_legal, h]
      simp
    rw [← h, decode_of_not_legal hreserved, decode_of_not_legal (by rwa [readPart_cmd]), readPart_cmd]

/-- Settles O14: a request decodes as its read part does. -/
theorem unreadPortBitsAreIgnored : Obligations.UnreadPortBitsAreIgnored := by
  intro q q' h
  rw [← decode_readPart q, h, decode_readPart]

/-! ### A listing that begins with a reserved command -/

/-- No `CRC32C` is outstanding, so no step without reset can change `CAP_VALID` (spec/41_primitive_mixers.md R111). -/
def NoProbeAhead (valid : Bool) (s : State) : Prop :=
  s.resetLine = false ∧ s.capValid = valid ∧ ∀ x ∈ s.outstanding, x.req.cmd ≠ 0x03#8

theorem step_keeps_noProbeAhead {valid : Bool} {s t : State} (hs : NoProbeAhead valid s) (h : step s = .next t) :
    NoProbeAhead valid t := by
  obtain ⟨hr, hvalid, hcmd⟩ := hs
  rcases step_cases s with ⟨hreset, -⟩ | ⟨-, -, hs⟩ |
    ⟨-, -, u, -, hperm, -, hcap, -, -, hline, ⟨i, hd, hs⟩ | ⟨e, -, hs⟩⟩
  · cases hr.symm.trans hreset
  · obtain rfl := Host.Outcome.next.inj (hs.symm.trans h)
    exact ⟨hr, hvalid, hcmd⟩
  all_goals
    obtain rfl := Host.Outcome.next.inj (hs.symm.trans h)
    obtain ⟨hserving, hrest⟩ := List.forall_mem_cons.mp fun x hx => hcmd x (hperm.mem_iff.mp hx)
  · refine ⟨by simpa using hline, ?_, by simpa using hrest⟩
    rcases beforeAnswer_cache i u with ⟨hsame, -⟩ | ⟨⟨st, byte, rfl⟩, -⟩
    · exact hsame.trans (hcap.trans hvalid)
    · exact absurd (cmd_of_decode_crc32c hd) hserving
  · exact ⟨hline, hcap.trans hvalid, hrest⟩

theorem awaitAnswer_keeps_noProbeAhead {valid : Bool} {r k fuel : Nat} {s t : State} {p : Response}
    (hs : NoProbeAhead valid s) (h : awaitAnswer r k fuel s = some (t, p)) : NoProbeAhead valid t := by
  induction fuel generalizing s with
  | zero =>
    obtain ⟨a, -, ha⟩ := Option.map_eq_some_iff.mp h
    obtain ⟨rfl, -⟩ := Prod.mk.inj ha
    exact hs
  | succ fuel ih =>
    cases hk : (answersTo r s)[k]? with
    | some a =>
      obtain ⟨rfl, -⟩ : s = t ∧ a.rsp = p := by simpa [awaitAnswer, hk] using h
      exact hs
    | none =>
      obtain ⟨u, hu⟩ := step_total s
      rw [awaitAnswer_of_step hk hu] at h
      exact ih (step_keeps_noProbeAhead hs hu) h

theorem ask_keeps_noProbeAhead {valid : Bool} {r : Nat} {q : Request} {s t : State} {p : Response}
    (hs : NoProbeAhead valid s) (hq : q.cmd ≠ 0x03#8) (h : ask r q s = some (t, p)) : NoProbeAhead valid t := by
  obtain ⟨hr, hvalid, hcmd⟩ := hs
  have hissued : NoProbeAhead valid (s.issue r q) :=
    ⟨hr, hvalid, by simpa [or_imp, forall_and] using ⟨hcmd, hq⟩⟩
  exact awaitAnswer_keeps_noProbeAhead hissued h

/-- A listing in which no line is `CRC32C` leaves `CAP_VALID` as it is. -/
theorem runListing_keeps_noProbeAhead {valid : Bool} {r : Nat} {env env' : List Response} {lines : List Line}
    {s t : State} (hs : NoProbeAhead valid s) (hlines : ∀ l ∈ lines, l.cmd ≠ 0x03#8)
    (h : runListing r env lines s = .next (t, env')) : NoProbeAhead valid t := by
  induction lines generalizing env s with
  | nil =>
    obtain ⟨rfl, -⟩ := Prod.mk.inj (Host.Outcome.next.inj h)
    exact hs
  | cons l ls ih =>
    obtain ⟨hl, hls⟩ := List.forall_mem_cons.mp hlines
    unfold runListing at h
    split at h
    · split at h
      · cases h
      · split at h
        · cases h
        · rename_i hask
          exact ih (ask_keeps_noProbeAhead hs hl hask) hls h
    · cases h

/-- A reserved command without operands is answered with the error bit, and the listing goes on (R231). -/
theorem runListing_reservedLine (r : Nat) {cmd : BitVec 8} {s : State} (hr : s.resetLine = false)
    (hcmd : commandLegal cmd = false) :
    ∃ t p, t.resetLine = false ∧ p.err = true ∧
      ∀ ls, runListing r [] (⟨cmd, []⟩ :: ls) s = runListing r [p] ls t := by
  have hd : decode (lineRequest cmd []) = .error (reservedClass cmd) := decode_of_not_legal hcmd
  obtain ⟨t, p, hask, hline, hright⟩ := ask_answers r (lineRequest cmd []) hr
  have herr : p.err = true := by simpa only [RightAnswer, hd] using hright
  have hwf : lineWellFormed 0 ⟨cmd, []⟩ = true := by
    simp [lineWellFormed, rowOf_of_not_legal hcmd]
  exact ⟨t, p, hline, herr, fun ls => runListing_cons hwf rfl hask⟩

/-- The use of an `R` whose `ERR` is 1 has no value, so the line that makes it stops the listing (R82, log entry 16). -/
theorem runListing_errResult (r : Nat) {p : Response} (hp : p.err = true) (byte : Nat) (ls : List Line) (s : State) :
    runListing r [p] (⟨0x04#8, [.result 0, .lit byte]⟩ :: ls) s = .fault (.errResultUsed 1) := by
  have hwf : lineWellFormed 1 ⟨0x04#8, [.result 0, .lit byte]⟩ = true := lineWellFormed_byteLine byte rfl rfl
  simp [runListing, hwf, evalOperands, evalHost, hp]

/-- Settles O54: the reserved line is answered with `ERR = 1`; `CRC32CS` then has no state if it takes that answer's `R`,
and the state 1 if it takes its `ERR`. Neither command is `CRC32C`. -/
theorem errResultMayNotBeUsed : Obligations.ErrResultMayNotBeUsed := by
  intro r cmd byte s hr hcmd
  obtain ⟨t, p, hline, herr, hrun⟩ := runListing_reservedLine r hr hcmd
  have hcrcs : IsByteStep 0x04#8 zext64 crc32cStep := isByteStep_of_mem32 (by simp)
  have herrBit : evalHost [p] (.errBit 0) = some (zext64 1).toNat := by simp [evalHost, herr]
  obtain ⟨u, -, hrun'⟩ := runListing_byteLine hcrcs (r := r) byte [] hline rfl herrBit
  have hlisting := (hrun _).trans hrun'
  refine ⟨(hrun _).trans (runListing_errResult r herr byte.toNat [] t), u, p, hlisting, herr, fun hp => ?_⟩
  have hidle : NoProbeAhead s.capValid s := ⟨hr, rfl, by simp [State.outstanding, hp]⟩
  have hne : cmd ≠ 0x03#8 := by
    rintro rfl
    exact absurd hcmd (by decide)
  obtain ⟨-, hvalid, -⟩ := runListing_keeps_noProbeAhead hidle (by simp [hne]) hlisting
  exact hvalid

end Sys2Proof.Machine

/-! PROOFS. The statements of spec/41_primitive_mixers.md: what the byte steps answer (R101 to R109) and the laws of the
Larson, FNV-1a and CRC32-C steps (R102 to R104, R110, R112, R114); with them the truncation law of spec/43_combine.md
R152. -/

namespace Sys2Proof.Machine

/-! ### Truncation to 32 bits keeps sums, products and XOR -/

theorem trunc32_add (x y : Word64) : trunc32 (x + y) = trunc32 x + trunc32 y := BitVec.setWidth_add x y (by decide)

theorem trunc32_mul (x y : Word64) : trunc32 (x * y) = trunc32 x * trunc32 y := BitVec.setWidth_mul x y (by decide)

theorem trunc32_xor (x y : Word64) : trunc32 (x ^^^ y) = trunc32 x ^^^ trunc32 y := BitVec.setWidth_xor

@[simp] theorem trunc32_zext64 (v : Word32) : trunc32 (zext64 v) = v := hashOperand32_zext64 v

@[simp] theorem trunc32_byteTo64 (byte : Byte) : trunc32 (byteTo64 byte) = byteTo32 byte :=
  BitVec.setWidth_setWidth_of_le byte (by decide)

/-- The low half of the 64-bit product is the product of the low halves: only the prime's low half acts (R103). -/
theorem fnv1aStep32_eq_mul_trunc32 (st : Word32) (byte : Byte) (prime : Word64) :
    fnv1aStep32 st byte prime = (st ^^^ byteTo32 byte) * trunc32 prime := by
  rw [fnv1aStep32, trunc32_mul, trunc32_zext64]

/-- Settles O43: truncation keeps the operations that each step is made of. -/
theorem narrowOperationsTruncateWideOnes : Obligations.NarrowOperationsTruncateWideOnes := by
  refine ⟨fun st byte => ?_, fun st byte prime => ?_, fun a b prime => ?_⟩
  · rw [larsonStep64, trunc32_add, trunc32_mul, trunc32_zext64, trunc32_byteTo64]
    rfl
  · rw [fnv1aStep64, trunc32_mul, trunc32_xor, trunc32_zext64, trunc32_byteTo64, fnv1aStep32_eq_mul_trunc32]
  · rw [combinePrime64, trunc32_mul, trunc32_xor, trunc32_zext64, trunc32_zext64, trunc32_zext64]
    rfl

theorem trunc32_congr {x y : Word64} (h : x.toNat % 2 ^ 32 = y.toNat % 2 ^ 32) : trunc32 x = trunc32 y :=
  BitVec.eq_of_toNat_eq (by rw [trunc32_toNat, trunc32_toNat, h])

/-- Settles O44: the prime enters `FNV1A.32` by its low half, and the default primes are the constants of R8. -/
theorem fnvPrimeLowHalfActs : Obligations.FnvPrimeLowHalfActs := by
  refine ⟨fun st byte prime prime' h => ?_, fun st byte => ?_, fun _ _ => rfl⟩
  · rw [fnv1aStep32_eq_mul_trunc32, fnv1aStep32_eq_mul_trunc32, trunc32_congr h]
  · rw [fnv1aStep32_eq_mul_trunc32]
    rfl

/-! ### The Larson and FNV-1a steps are bijections of the state -/

theorem xor_bijective {n : Nat} (b : BitVec n) : Function.Bijective (fun x : BitVec n => x ^^^ b) :=
  Function.Involutive.bijective fun x => by rw [BitVec.xor_assoc, BitVec.xor_self, BitVec.xor_zero]

/-- The shape of a Larson step. -/
theorem odd_mul_add_bijective {n : Nat} {c : BitVec n} (hc : c.toNat % 2 = 1) (b : BitVec n) :
    Function.Bijective (fun x => c * x + b) := by
  simp only [BitVec.mul_comm c]
  exact (AddGroup.addRight_bijective b).comp (mul_odd_bijective hc)

/-- The shape of an FNV-1a step. -/
theorem xor_mul_odd_bijective {n : Nat} {c : BitVec n} (hc : c.toNat % 2 = 1) (b : BitVec n) :
    Function.Bijective (fun x => (x ^^^ b) * c) :=
  (mul_odd_bijective hc).comp (xor_bijective b)

/-- Settles O45: the multiplier 37 and the prime are odd, and a 64-bit prime's low half is odd with it. -/
theorem byteStepsAreBijections : Obligations.ByteStepsAreBijections := by
  refine ⟨fun byte => odd_mul_add_bijective rfl _, fun byte => odd_mul_add_bijective rfl _, fun byte prime hodd => ?_,
    fun byte prime hodd => xor_mul_odd_bijective hodd _⟩
  simp only [fnv1aStep32_eq_mul_trunc32]
  refine xor_mul_odd_bijective ?_ _
  rw [trunc32_toNat]
  omega

/-! ### The byte steps over unsigned numbers -/

theorem larsonStep32_toNat (st : Word32) (byte : Byte) :
    (larsonStep32 st byte).toNat = (37 * st.toNat + byte.toNat) % 2 ^ 32 := by
  simp [larsonStep32]

theorem larsonStep64_toNat (st : Word64) (byte : Byte) :
    (larsonStep64 st byte).toNat = (37 * st.toNat + byte.toNat) % 2 ^ 64 := by
  simp [larsonStep64]

theorem fnv1aStep32_toNat (st : Word32) (byte : Byte) (prime : Word64) :
    (fnv1aStep32 st byte prime).toNat = (st.toNat ^^^ byte.toNat) * prime.toNat % 2 ^ 64 % 2 ^ 32 := by
  rw [fnv1aStep32, trunc32_toNat, BitVec.toNat_mul, zext64_toNat, BitVec.toNat_xor, byteTo32_toNat]

theorem fnv1aStep64_toNat (st : Word64) (byte : Byte) (prime : Word64) :
    (fnv1aStep64 st byte prime).toNat = (st.toNat ^^^ byte.toNat) * prime.toNat % 2 ^ 64 := by
  rw [fnv1aStep64, BitVec.toNat_mul, BitVec.toNat_xor, byteTo64_toNat]

theorem fnv1adStep32_toNat (st : Word32) (byte : Byte) :
    (fnv1adStep32 st byte).toNat = (st.toNat ^^^ byte.toNat) * 0x01000193 % 2 ^ 32 := by
  rw [fnv1adStep32, mul_fnvPrime32_toNat, BitVec.toNat_xor, byteTo32_toNat]

theorem fnv1adStep64_toNat (st : Word64) (byte : Byte) :
    (fnv1adStep64 st byte).toNat = (st.toNat ^^^ byte.toNat) * 0x00000100000001B3 % 2 ^ 64 := by
  rw [fnv1adStep64, mul_fnvPrime64_toNat, BitVec.toNat_xor, byteTo64_toNat]

theorem crcRounds_toNat (n : Nat) (s : Word32) : (crcRounds n s).toNat = natCrcRound^[n] s.toNat := by
  have hround : Function.Semiconj BitVec.toNat crcRound natCrcRound := crcRound_toNat
  rw [crcRounds_eq_iterate, hround.iterate_right n s]

theorem crc32cStep_toNat (st : Word32) (byte : Byte) :
    (crc32cStep st byte).toNat = natCrcStep st.toNat byte.toNat := by
  rw [crc32cStep, crcRounds_toNat, BitVec.toNat_xor, byteTo32_toNat, natCrcStep]

/-! ### The Larson fold -/

/-- What the bytes of a Larson fold add to the result: `bytes[i]` is multiplied once for each byte after it (R112). -/
def larsonSum (bytes : List Byte) : Nat :=
  ∑ i : Fin bytes.length, 37 ^ (bytes.length - 1 - i) * (bytes.get i).toNat

theorem larsonSum_cons (byte : Byte) (bytes : List Byte) :
    larsonSum (byte :: bytes) = 37 ^ bytes.length * byte.toNat + larsonSum bytes := by
  simp [larsonSum, Fin.sum_univ_succ, Nat.sub_sub, Nat.add_comm 1]

/-- The closed form of R112, for a step that is the Larson step at width `w`. -/
theorem foldl_larson_toNat {w : Nat} {step : BitVec w → Byte → BitVec w}
    (hstep : ∀ st byte, (step st byte).toNat = (37 * st.toNat + byte.toNat) % 2 ^ w) (s0 : BitVec w)
    (bytes : List Byte) :
    (bytes.foldl step s0).toNat = (37 ^ bytes.length * s0.toNat + larsonSum bytes) % 2 ^ w := by
  induction bytes generalizing s0 with
  | nil => simp [larsonSum, Nat.mod_eq_of_lt s0.isLt]
  | cons byte bytes ih =>
    have hmod : 37 ^ bytes.length * ((37 * s0.toNat + byte.toNat) % 2 ^ w) + larsonSum bytes ≡
        37 ^ bytes.length * (37 * s0.toNat + byte.toNat) + larsonSum bytes [MOD 2 ^ w] :=
      ((Nat.mod_modEq _ _).mul_left _).add_right _
    have hexpand : 37 ^ bytes.length * (37 * s0.toNat + byte.toNat) + larsonSum bytes =
        37 ^ (bytes.length + 1) * s0.toNat + larsonSum (byte :: bytes) := by
      rw [larsonSum_cons]
      ring
    rw [List.foldl_cons, ih, hstep, List.length_cons, ← hexpand]
    exact hmod

/-- Settles O42: the closed form, by induction over the bytes, at both widths; the source's value by evaluation. -/
theorem larsonFoldClosedForm : Obligations.LarsonFoldClosedForm :=
  ⟨foldl_larson_toNat larsonStep32_toNat, foldl_larson_toNat larsonStep64_toNat, rfl⟩

/-! ### The CRC32-C step -/

/-- The polynomial is added in linearly in the bit tested. -/
theorem crcRound_xor (x y : Word32) : crcRound (x ^^^ y) = crcRound x ^^^ crcRound y := by
  have hpoly (a b : Bool) (p : Word32) : (if a ^^ b then p else 0#32) =
      (if a then p else 0#32) ^^^ (if b then p else 0#32) := by
    cases a <;> cases b <;> simp
  rw [crcRound, crcRound, crcRound, BitVec.ushiftRight_xor_distrib, BitVec.getLsbD_xor, hpoly]
  ac_rfl

theorem crcRounds_xor (n : Nat) (x y : Word32) : crcRounds n (x ^^^ y) = crcRounds n x ^^^ crcRounds n y := by
  induction n generalizing x y with
  | zero => rfl
  | succ n ih => rw [crcRounds, crcRound_xor, ih, crcRounds, crcRounds]

/-- The shift leaves the top bit clear and the polynomial's top bit is set, so the bit tested comes back on top. -/
theorem crcRound_getLsbD_top (s : Word32) : (crcRound s).getLsbD 31 = s.getLsbD 0 := by
  have hpoly : crc32cPolyReflected.getLsbD 31 = true := by decide
  rw [crcRound, BitVec.getLsbD_xor, BitVec.getLsbD_ushiftRight, BitVec.getLsbD_of_ge s _ (by decide)]
  cases s.getLsbD 0 <;> simp [hpoly]

/-- The top bit of a round's result tells whether the polynomial was XORed in, and the rest is the shifted state. -/
theorem crcRound_injective : Function.Injective crcRound := by
  intro x y h
  have hbit : x.getLsbD 0 = y.getLsbD 0 := by
    rw [← crcRound_getLsbD_top, h, crcRound_getLsbD_top]
  have hshift : x >>> 1 = y >>> 1 := by
    rw [crcRound, crcRound, hbit] at h
    exact (BitVec.xor_left_inj _).mp h
  refine BitVec.eq_of_getLsbD_eq fun i _ => ?_
  cases i with
  | zero => exact hbit
  | succ i => simpa [Nat.add_comm] using congrArg (BitVec.getLsbD · i) hshift

theorem crcRounds_bijective (n : Nat) : Function.Bijective (crcRounds n) := by
  rw [funext (crcRounds_eq_iterate n)]
  exact (Finite.injective_iff_bijective.mp crcRound_injective).iterate n

theorem byteTo32_injective : Function.Injective byteTo32 := fun x y h => by
  simpa [BitVec.toNat_inj] using congrArg BitVec.toNat h

theorem crc32cStep_zero (x : Word32) : crc32cStep x 0 = crcRounds 8 x := by
  simp [crc32cStep, byteTo32]

theorem crc32cStep_bijective (byte : Byte) : Function.Bijective (fun st : Word32 => crc32cStep st byte) :=
  (crcRounds_bijective 8).comp (xor_bijective (byteTo32 byte))

/-- Settles O40: a round is linear over XOR and injective, hence so are eight, and the byte enters by one XOR. -/
theorem crcStepAlgebra : Obligations.CrcStepAlgebra := by
  refine ⟨fun st byte => (crc32cStep_zero _).symm, fun x y => ?_, crc32cStep_bijective 0, crc32cStep_bijective,
    fun st => ?_⟩
  · rw [crc32cStep_zero, crcRounds_xor, crc32cStep_zero, crc32cStep_zero]
  · exact (crcRounds_bijective 8).injective.comp fun b b' h => byteTo32_injective ((BitVec.xor_right_inj st).mp h)

/-! ### What the byte steps answer

An operand is read from its port as the number modulo its width by definition, so the decoding of each command is the
decoder run on it. -/

/-- `exec_eq` in the words of the statements: the request is answered with the result, in the state the probe left. -/
theorem exec_eq_answered {i : Instr} {r : Nat} (hr : (resultOf Config.params i).toNat = r) (s : State) :
    exec i s = .next (answered (beforeAnswer i s) r) := by
  rw [exec_eq, ← hr, answered, BitVec.ofNat_toNat, BitVec.setWidth_eq]
  rfl

theorem exists_decode_error {cmd : BitVec 8} (h : commandLegal cmd = false) (a b c d : Word64) :
    ∃ e, decode ⟨cmd, a, b, c, d⟩ = .error e :=
  ⟨_, decode_of_not_legal h⟩

theorem toNat_zext64_of_toNat {v : Word32} {r : Nat} (h : v.toNat = r) : (zext64 v).toNat = r :=
  (zext64_toNat v).trans h

/-- Settles O20: `larsonStep32_toNat`, answered. -/
theorem larson32Answers : Obligations.Larson32Answers :=
  ⟨fun _ _ _ _ => rfl, fun st byte => exec_eq_answered (toNat_zext64_of_toNat (larsonStep32_toNat st byte))⟩

/-- Settles O21: `larsonStep64_toNat`, answered. -/
theorem larson64Answers : Obligations.Larson64Answers :=
  ⟨fun _ _ _ _ => rfl, fun st byte => exec_eq_answered (larsonStep64_toNat st byte)⟩

/-- Settles O22: `fnv1aStep32_toNat`, answered. -/
theorem fnv1a32Answers : Obligations.Fnv1a32Answers :=
  ⟨fun _ _ _ _ => rfl, fun st byte prime =>
    exec_eq_answered (toNat_zext64_of_toNat (fnv1aStep32_toNat st byte prime))⟩

/-- Settles O23: `fnv1aStep64_toNat`, answered. -/
theorem fnv1a64Answers : Obligations.Fnv1a64Answers :=
  ⟨fun _ _ _ _ => rfl, fun st byte prime => exec_eq_answered (fnv1aStep64_toNat st byte prime)⟩

/-- Settles O24: `fnv1adStep32_toNat`, answered. -/
theorem fnv1ad32Answers : Obligations.Fnv1ad32Answers :=
  ⟨fun _ _ _ _ => rfl, fun st byte => exec_eq_answered (toNat_zext64_of_toNat (fnv1adStep32_toNat st byte))⟩

/-- Settles O25: `fnv1adStep64_toNat`, answered. -/
theorem fnv1ad64Answers : Obligations.Fnv1ad64Answers :=
  ⟨fun _ _ _ _ => rfl, fun st byte => exec_eq_answered (fnv1adStep64_toNat st byte)⟩

/-- Settles O26: `crc32cStep_toNat`, answered; `0x14` has no row in the opcode map. -/
theorem crc32csAnswers : Obligations.Crc32csAnswers :=
  ⟨fun _ _ _ _ => rfl, exists_decode_error (by decide), fun st byte =>
    exec_eq_answered (toNat_zext64_of_toNat (crc32cStep_toNat st byte))⟩

theorem probe_eq (s : State) :
    probe s = { s with capValid := true, capHw := if s.capValid then s.capHw else Config.hwCrcPresent } := by
  obtain ⟨valid, hw, pending, serving, answers, resetLine, draws⟩ := s
  cases valid <;> rfl

/-- Settles O27: `crc32cStep_toNat`, answered in the state that the probe leaves; `0x13` has no row. -/
theorem crc32cAnswers : Obligations.Crc32cAnswers := by
  refine ⟨fun _ _ _ _ => rfl, exists_decode_error (by decide), fun st byte s => ?_⟩
  rw [← probe_eq]
  exact exec_eq_answered (i := .crc32c st byte) (toNat_zext64_of_toNat (crc32cStep_toNat st byte)) s

/-- Settles O39: both results are `crc32cStep` of the operands, and the probe gives no answer of its own. -/
theorem hardwareAndSoftwareCrcAgree : Obligations.HardwareAndSoftwareCrcAgree :=
  fun st byte s s' => ⟨_, _, ⟨zext64 (crc32cStep st byte), false⟩, exec_eq (.crc32c st byte) s,
    exec_eq (.crc32cs st byte) s', by simp [resultOf], by simp [resultOf]⟩

end Sys2Proof.Machine

/-! PROOFS. The statements of spec/42_integer_hash.md: the two mixes (R132, R133), when an integer hash is 0 and what
its seed does (R137, R138), and what `HINT` answers (R134 to R136). -/

namespace Sys2Proof.Machine

/-! ### The mixes -/

@[simp] theorem knuthMix32_zero : knuthMix32 0#32 = 0#32 := by
  simp [knuthMix32]

@[simp] theorem wangMix64_zero : wangMix64 0#64 = 0#64 := by
  simp [wangMix64]

/-- Each of the mix's five moves is a bijection: the multiplier is odd. -/
theorem knuthMix32_bijective : Function.Bijective knuthMix32 :=
  have hshift : Function.Bijective (xorShiftRight 16 : Word32 → Word32) := xorShiftRight_bijective (by decide)
  have hmul : Function.Bijective (fun x => x * knuthMultiplier32) := mul_odd_bijective rfl
  hshift.comp (hmul.comp (hshift.comp (hmul.comp hshift)))

/-- Each of the mix's five moves is a bijection: both multipliers are odd. -/
theorem wangMix64_bijective : Function.Bijective wangMix64 :=
  have hshift {k : Nat} (hk : 0 < k) : Function.Bijective (xorShiftRight k : Word64 → Word64) :=
    xorShiftRight_bijective hk
  have hmul1 : Function.Bijective (fun x => x * wangC1) := mul_odd_bijective rfl
  have hmul2 : Function.Bijective (fun x => x * wangC2) := mul_odd_bijective rfl
  (hshift (k := 31) (by decide)).comp (hmul2.comp
    ((hshift (k := 27) (by decide)).comp (hmul1.comp (hshift (k := 30) (by decide)))))

/-- Settles O46: shifts and products fix 0, and each move of either mix is reversible. -/
theorem integerMixesAreBijections : Obligations.IntegerMixesAreBijections :=
  ⟨knuthMix32_zero, wangMix64_zero, knuthMix32_bijective, wangMix64_bijective⟩

@[simp] theorem knuthMix32_eq_zero_iff {x : Word32} : knuthMix32 x = 0#32 ↔ x = 0#32 :=
  knuthMix32_bijective.injective.eq_iff' knuthMix32_zero

@[simp] theorem wangMix64_eq_zero_iff {x : Word64} : wangMix64 x = 0#64 ↔ x = 0#64 :=
  wangMix64_bijective.injective.eq_iff' wangMix64_zero

/-! ### The fold of the halves -/

theorem foldHalves_toNat (t : Word64) :
    (foldHalves t).toNat = (t.toNat / 2 ^ 32) ^^^ (t.toNat % 2 ^ 32) := by
  have hhigh : t.toNat / 2 ^ 32 < 2 ^ 32 := Nat.div_lt_of_lt_mul t.isLt
  rw [foldHalves, BitVec.toNat_xor, BitVec.extractLsb'_toNat, BitVec.extractLsb'_toNat, Nat.shiftRight_eq_div_pow,
    Nat.mod_eq_of_lt hhigh, Nat.shiftRight_zero]

theorem foldHalves_xor (x y : Word64) : foldHalves (x ^^^ y) = foldHalves x ^^^ foldHalves y := by
  rw [foldHalves, BitVec.extractLsb'_xor, BitVec.extractLsb'_xor, foldHalves, foldHalves]
  ac_rfl

@[simp] theorem foldHalves_zext64 (v : Word32) : foldHalves (zext64 v) = v :=
  BitVec.eq_of_toNat_eq (by
    rw [foldHalves_toNat, zext64_toNat, Nat.div_eq_of_lt v.isLt, Nat.mod_eq_of_lt v.isLt, Nat.zero_xor])

theorem zext64_eq_zero_iff {v : Word32} : zext64 v = 0#64 ↔ v = 0#32 := by
  rw [← BitVec.toNat_inj, ← BitVec.toNat_inj, zext64_toNat]
  rfl

/-- The 64-bit form folded to 32 bits takes the seed after the fold as well as before it. -/
theorem hashInt32From64_eq (v : Word64) (s : Word32) :
    hashInt32From64 v s = if v = 0#64 then 0#32 else knuthMix32 (foldHalves v ^^^ s) := by
  rw [hashInt32From64, foldHalves_xor, foldHalves_zext64]

/-! ### The zeros and the seed -/

theorem hashInt32_of_ne_zero {v : Word32} (hv : v ≠ 0#32) (s : Word32) : hashInt32 v s = knuthMix32 (v ^^^ s) :=
  if_neg hv

theorem hashInt64_of_ne_zero {v : Word64} (hv : v ≠ 0#64) (s : Word64) : hashInt64 v s = wangMix64 (v ^^^ s) :=
  if_neg hv

/-- Settles O47: a mix is 0 at 0 alone, and there its input is the value, folded or not, XORed with the seed. -/
theorem integerHashZeroes : Obligations.IntegerHashZeroes := by
  refine ⟨fun v s => ?_, fun v s => ?_, fun v s => ?_⟩
  · simp [hashInt32, or_iff_not_imp_left]
  · simp [hashInt64, or_iff_not_imp_left]
  · rw [← foldHalves_toNat, BitVec.toNat_inj]
    simp [hashInt32From64_eq, or_iff_not_imp_left]

/-- Settles O48: where neither zero test answers, both sides mix `v ^^^ s`; a zero-extended value folds to itself. -/
theorem seedIsAnXorMask : Obligations.SeedIsAnXorMask := by
  refine ⟨fun v s hv hmasked => ?_, fun v s hv hmasked => ?_, fun v s => ?_⟩
  · rw [hashInt32_of_ne_zero hv, hashInt32_of_ne_zero hmasked]
    exact congrArg knuthMix32 BitVec.xor_zero.symm
  · rw [hashInt64_of_ne_zero hv, hashInt64_of_ne_zero hmasked]
    exact congrArg wangMix64 BitVec.xor_zero.symm
  · simp only [hashInt32From64_eq, hashInt32, foldHalves_zext64, zext64_eq_zero_iff]

/-! ### The integer hash over unsigned numbers -/

/-- The zero test of R137 over unsigned numbers. -/
theorem toNat_ite_eq_zero {m n r : Nat} {v : BitVec m} {x : BitVec n} (hx : x.toNat = r) :
    (if v = 0#m then 0#n else x).toNat = if v.toNat = 0 then 0 else r := by
  simp only [apply_ite BitVec.toNat, hx, ← BitVec.toNat_inj, BitVec.toNat_ofNat, Nat.zero_mod]

theorem hashInt32_toNat (v s : Word32) :
    (hashInt32 v s).toNat = if v.toNat = 0 then 0 else natKnuthMix32 (v.toNat ^^^ s.toNat) :=
  toNat_ite_eq_zero (by rw [knuthMix32_toNat, BitVec.toNat_xor])

theorem hashInt32From64_toNat (v : Word64) (s : Word32) :
    (hashInt32From64 v s).toNat = if v.toNat = 0 then 0 else
      natKnuthMix32 (((v.toNat ^^^ s.toNat) / 2 ^ 32) ^^^ ((v.toNat ^^^ s.toNat) % 2 ^ 32)) :=
  toNat_ite_eq_zero (by rw [knuthMix32_toNat, foldHalves_toNat, BitVec.toNat_xor, zext64_toNat])

theorem hashInt64_toNat (v s : Word64) :
    (hashInt64 v s).toNat = if v.toNat = 0 then 0 else natWangMix64 (v.toNat ^^^ s.toNat) :=
  toNat_ite_eq_zero (by rw [wangMix64_toNat, BitVec.toNat_xor])

/-! ### What `HINT` answers -/

/-- Settles O28: `hashInt32_toNat`, answered. -/
theorem hint32I32Answers : Obligations.Hint32I32Answers :=
  ⟨fun _ _ _ _ => rfl, fun value seed => exec_eq_answered (toNat_zext64_of_toNat (hashInt32_toNat value seed))⟩

/-- Settles O29: `hashInt32From64_toNat`, answered. -/
theorem hint32I64Answers : Obligations.Hint32I64Answers :=
  ⟨fun _ _ _ _ => rfl, fun value seed => exec_eq_answered (toNat_zext64_of_toNat (hashInt32From64_toNat value seed))⟩

/-- Settles O30: `hashInt64_toNat`, answered. -/
theorem hint64Answers : Obligations.Hint64Answers :=
  ⟨fun _ _ _ _ => rfl, fun value seed => exec_eq_answered (hashInt64_toNat value seed)⟩

end Sys2Proof.Machine

/-! PROOFS. The statements of spec/43_combine.md: the laws of the two combine forms (R157), and what `COMBP` and `COMB`
answer (R151 to R155). -/

namespace Sys2Proof.Machine

/-! ### The explicit-prime form -/

theorem combinePrime32_self (a prime : Word32) : combinePrime32 a a prime = 0#32 := by
  rw [combinePrime32, BitVec.xor_self, BitVec.zero_mul]

theorem combinePrime64_self (a prime : Word64) : combinePrime64 a a prime = 0#64 := by
  rw [combinePrime64, BitVec.xor_self, BitVec.zero_mul]

theorem combinePrime32_comm (a b prime : Word32) : combinePrime32 a b prime = combinePrime32 b a prime := by
  rw [combinePrime32, BitVec.xor_comm, combinePrime32]

theorem combinePrime64_comm (a b prime : Word64) : combinePrime64 a b prime = combinePrime64 b a prime := by
  rw [combinePrime64, BitVec.xor_comm, combinePrime64]

/-! ### The Boost step at every width -/

/-- The new value enters by one addition and one XOR (R153). -/
theorem boostStep_bijective {n : Nat} (golden a : BitVec n) : Function.Bijective (fun b => boostStep golden a b) := by
  simp only [boostStep, BitVec.add_assoc, BitVec.xor_comm a]
  exact (xor_bijective a).comp (AddGroup.addRight_bijective _)

/-- No carry reaches bit 0: it is an XOR, to which `a >> 2` gives bit 2 of `a` and `a << 6` gives nothing. -/
theorem boostStep_getLsbD_zero {n : Nat} (hn : 0 < n) (golden a b : BitVec n) :
    (boostStep golden a b).getLsbD 0 =
      (a.getLsbD 0 ^^ (b.getLsbD 0 ^^ golden.getLsbD 0 ^^ a.getLsbD 2)) := by
  simp [boostStep, BitVec.getLsbD_add hn]

/-- Bit 0 of the result holds bit 2 of the first operand and not of the second, whatever the constant is. -/
theorem boostStep_four_zero_ne {n : Nat} (hn : 2 < n) (golden : BitVec n) :
    boostStep golden 4#n 0#n ≠ boostStep golden 0#n 4#n := by
  have hfour {i : Nat} (hi : i < n) : (4#n).getLsbD i = Nat.testBit 4 i := by
    rw [BitVec.getLsbD_ofNat, decide_eq_true hi, Bool.true_and]
  have hpos : 0 < n := Nat.zero_lt_of_lt hn
  intro h
  have hbit := congrArg (BitVec.getLsbD · 0) h
  simp only [boostStep_getLsbD_zero hpos, hfour hpos, hfour hn, BitVec.getLsbD_zero] at hbit
  exact absurd hbit (by cases golden.getLsbD 0 <;> decide)

/-! ### The laws -/

theorem combine64_bijective {p : Params} (h1 : p.combC1.toNat % 2 = 1) (h2 : p.combC2.toNat % 2 = 1) (a : Word64) :
    Function.Bijective (fun b => combine64 p a b) :=
  (fmix64_bijective h1 h2).comp (boostStep_bijective p.goldenRatio64 a)

/-- The finalizer is injective with odd multipliers, so it keeps the two Boost steps apart. -/
theorem combine64_four_zero_ne {p : Params} (h1 : p.combC1.toNat % 2 = 1) (h2 : p.combC2.toNat % 2 = 1) :
    combine64 p 4 0 ≠ combine64 p 0 4 :=
  (fmix64_bijective h1 h2).injective.ne (boostStep_four_zero_ne (by decide) p.goldenRatio64)

/-- Settles O50: each move of either form is reversible, XOR is symmetric, and `COMB` tells `(4, 0)` from `(0, 4)`. -/
theorem combineLaws : Obligations.CombineLaws :=
  ⟨fun p => boostStep_bijective p.goldenRatio32,
    fun _ a h1 h2 => combine64_bijective h1 h2 a,
    fun b _ hodd => xor_mul_odd_bijective hodd b,
    fun b _ hodd => xor_mul_odd_bijective hodd b,
    combinePrime32_self, combinePrime64_self, combinePrime32_comm, combinePrime64_comm,
    fun p => ⟨4, 0, boostStep_four_zero_ne (by decide) p.goldenRatio32⟩,
    fun _ h1 h2 => ⟨4, 0, combine64_four_zero_ne h1 h2⟩⟩

/-! ### What `COMBP` and `COMB` answer -/

theorem combinePrime32_toNat (a b prime : Word32) :
    (combinePrime32 a b prime).toNat = (a.toNat ^^^ b.toNat) * prime.toNat % 2 ^ 32 := by
  rw [combinePrime32, BitVec.toNat_mul, BitVec.toNat_xor]

theorem combinePrime64_toNat (a b prime : Word64) :
    (combinePrime64 a b prime).toNat = (a.toNat ^^^ b.toNat) * prime.toNat % 2 ^ 64 := by
  rw [combinePrime64, BitVec.toNat_mul, BitVec.toNat_xor]

theorem combine32_toNat (p : Params) (a b : Word32) :
    (combine32 p a b).toNat = natBoostStep 32 p.goldenRatio32.toNat a.toNat b.toNat :=
  boostStep_toNat p.goldenRatio32 a b

theorem combine64_toNat (p : Params) (a b : Word64) :
    (combine64 p a b).toNat =
      natFmix64 (natBoostStep 64 p.goldenRatio64.toNat a.toNat b.toNat) p.combC1.toNat p.combC2.toNat := by
  rw [combine64, fmix64_toNat, boostStep_toNat]

/-- Settles O31: `combinePrime32_toNat`, answered. -/
theorem combp32Answers : Obligations.Combp32Answers :=
  ⟨fun _ _ _ _ => rfl, fun a b prime => exec_eq_answered (toNat_zext64_of_toNat (combinePrime32_toNat a b prime))⟩

/-- Settles O32: `combinePrime64_toNat`, answered. -/
theorem combp64Answers : Obligations.Combp64Answers :=
  ⟨fun _ _ _ _ => rfl, fun a b prime => exec_eq_answered (combinePrime64_toNat a b prime)⟩

/-- Settles O33: `combine32_toNat` with the unit's parameters, answered. -/
theorem comb32Answers : Obligations.Comb32Answers :=
  ⟨fun _ _ _ _ => rfl, fun a b => exec_eq_answered (toNat_zext64_of_toNat (combine32_toNat Config.params a b))⟩

/-- Settles O34: `combine64_toNat` with the unit's parameters, answered. -/
theorem comb64Answers : Obligations.Comb64Answers :=
  ⟨fun _ _ _ _ => rfl, fun a b => exec_eq_answered (combine64_toNat Config.params a b)⟩

end Sys2Proof.Machine

/-! PROOFS. The statements of spec/44_seedmix.md: what the mask leaves of the product (R176), which halves act at 32
bits (R172), and what `SMIX` and `SMIXD` answer (R172 to R175). -/

namespace Sys2Proof.Machine

/-! ### The mask `tableSize - 1` -/

/-- A table of `2 ^ k` entries is masked by `k` ones. -/
theorem mask_toNat_of_two_pow {tableSize : Word64} {k : Nat} (h : tableSize.toNat = 2 ^ k) :
    (tableSize - 1#64).toNat = 2 ^ k - 1 := by
  have hpos : 0 < 2 ^ k := Nat.two_pow_pos k
  bv_omega

/-- The subtraction wraps: size 0 is masked by 64 ones, as a table of `2 ^ 64` entries would be (R170). -/
theorem mask_toNat_zero : (0#64 - 1#64).toNat = 2 ^ 64 - 1 := rfl

/-! ### The masked product -/

/-- An AND is at most its mask, and the mask is below the size unless it wraps, whatever the product (R176). -/
theorem maskedProduct_lt (y mixConstant : Word64) {tableSize : Word64} (h : tableSize ≠ 0#64) :
    (maskedProduct y mixConstant tableSize).toNat < tableSize.toNat := by
  have hmask : (tableSize - 1#64).toNat < tableSize.toNat := by bv_omega
  rw [maskedProduct, BitVec.toNat_and]
  exact Nat.and_le_right.trans_lt hmask

/-- A mask of `k` ones keeps the low `k` bits of the product. -/
theorem maskedProduct_of_mask (y mixConstant : Word64) {tableSize : Word64} {k : Nat} (hk : k ≤ 64)
    (hmask : (tableSize - 1#64).toNat = 2 ^ k - 1) :
    (maskedProduct y mixConstant tableSize).toNat = y.toNat * mixConstant.toNat % 2 ^ k := by
  rw [maskedProduct, BitVec.toNat_and, hmask, Nat.and_two_pow_sub_one_eq_mod, BitVec.toNat_mul,
    Nat.mod_mod_of_dvd _ (Nat.pow_dvd_pow 2 hk)]

/-! ### The seed mix at 32 bits -/

theorem mod_two_pow_mod_two_pow (x k m : Nat) : x % 2 ^ k % 2 ^ m = x % 2 ^ min k m := by
  rcases Nat.le_total k m with h | h
  · rw [Nat.min_eq_left h]
    exact Nat.mod_eq_of_lt ((Nat.mod_lt x (Nat.two_pow_pos k)).trans_le (Nat.pow_le_pow_right Nat.two_pos h))
  · rw [Nat.min_eq_right h]
    exact Nat.mod_mod_of_dvd x (Nat.pow_dvd_pow 2 h)

/-- Truncation to 32 bits only lowers the masked product. -/
theorem seedMix32_lt (p : Params) (seed hash : Word32) {tableSize : Word64} (mixConstant : Word64)
    (h : tableSize ≠ 0#64) : (seedMix32 p seed hash tableSize mixConstant).toNat < tableSize.toNat := by
  rw [seedMix32, trunc32_toNat]
  exact (Nat.mod_le _ _).trans_lt (maskedProduct_lt _ mixConstant h)

theorem seedMix32_of_mask (p : Params) (seed hash : Word32) {tableSize : Word64} (mixConstant : Word64) {k : Nat}
    (hk : k ≤ 64) (hmask : (tableSize - 1#64).toNat = 2 ^ k - 1) :
    (seedMix32 p seed hash tableSize mixConstant).toNat =
      (p.wmix32 (seed + hash)).toNat * mixConstant.toNat % 2 ^ min k 32 := by
  rw [seedMix32, trunc32_toNat, maskedProduct_of_mask _ mixConstant hk hmask, zext64_toNat, mod_two_pow_mod_two_pow]

theorem trunc32_and (x y : Word64) : trunc32 (x &&& y) = trunc32 x &&& trunc32 y := BitVec.setWidth_and

/-- Truncation passes through the AND and the product, so only low halves act (R172). -/
theorem seedMix32_eq_narrow (p : Params) (seed hash : Word32) (tableSize mixConstant : Word64) :
    seedMix32 p seed hash tableSize mixConstant =
      p.wmix32 (seed + hash) * trunc32 mixConstant &&& trunc32 (tableSize - 1) := by
  rw [seedMix32, maskedProduct, trunc32_and, trunc32_mul, trunc32_zext64]
  rfl

/-! ### The laws -/

/-- Settles O51: the bound is the mask's, at 32 bits under a truncation; sizes `2 ^ k` and 0 are masks of `k` and of 64
ones. -/
theorem seedMixResultIsBelowTableSize : Obligations.SeedMixResultIsBelowTableSize := by
  refine fun p => ⟨fun seed hash tableSize mixConstant => ⟨fun h => ⟨?_, ?_⟩, fun k hk h => ?_, ?_⟩,
    fun seed hash tableSize mixConstant => ⟨fun h => ⟨?_, ?_⟩, fun k hk h => ?_, ?_⟩⟩
  · exact (zext64_toNat _).trans_lt (seedMix32_lt p seed hash mixConstant h)
  · exact (zext64_toNat _).trans_lt (seedMix32_lt p seed hash p.mixConstantDefault h)
  · exact toNat_zext64_of_toNat
      (seedMix32_of_mask p seed hash mixConstant (hk.trans (by decide)) (mask_toNat_of_two_pow h))
  · rintro rfl
    exact toNat_zext64_of_toNat (seedMix32_of_mask p seed hash mixConstant le_rfl mask_toNat_zero)
  · exact maskedProduct_lt _ mixConstant h
  · exact maskedProduct_lt _ p.mixConstantDefault h
  · exact maskedProduct_of_mask _ mixConstant (hk.trans (by decide)) (mask_toNat_of_two_pow h)
  · rintro rfl
    exact maskedProduct_of_mask _ mixConstant le_rfl mask_toNat_zero

/-- Settles O52: in the narrow form of `SMIX.32` the mix constant stands truncated. -/
theorem narrowSeedMixIgnoresHighHalves : Obligations.NarrowSeedMixIgnoresHighHalves :=
  fun p seed hash tableSize mixConstant mixConstant' =>
    ⟨seedMix32_eq_narrow p seed hash tableSize mixConstant,
      fun hlow => by rw [seedMix32_eq_narrow, hlow, ← seedMix32_eq_narrow],
      rfl⟩

/-! ### What `SMIX` and `SMIXD` answer -/

theorem seedMix32_toNat (p : Params) (seed hash : Word32) (tableSize mixConstant : Word64) :
    (seedMix32 p seed hash tableSize mixConstant).toNat =
      natMaskedProduct (p.wmix32 (BitVec.ofNat 32 (seed.toNat + hash.toNat))).toNat mixConstant.toNat
        tableSize.toNat % 2 ^ 32 := by
  rw [seedMix32, trunc32_toNat, maskedProduct_toNat, zext64_toNat, BitVec.add_def]

theorem seedMix64_toNat (p : Params) (seed hash tableSize mixConstant : Word64) :
    (seedMix64 p seed hash tableSize mixConstant).toNat =
      natMaskedProduct (natFmix64 ((seed.toNat + hash.toNat) % 2 ^ 64) p.smixC1.toNat p.smixC2.toNat)
        mixConstant.toNat tableSize.toNat := by
  rw [seedMix64, maskedProduct_toNat, fmix64_toNat, BitVec.toNat_add]

/-- Settles O35: `seedMix32_toNat` with the unit's parameters, answered. -/
theorem smix32Answers : Obligations.Smix32Answers :=
  ⟨fun _ _ _ _ => rfl,
    fun seed hash tableSize mixConstant =>
      exec_eq_answered (toNat_zext64_of_toNat (seedMix32_toNat Config.params seed hash tableSize mixConstant))⟩

/-- Settles O36: `seedMix64_toNat` with the unit's parameters, answered. -/
theorem smix64Answers : Obligations.Smix64Answers :=
  ⟨fun _ _ _ _ => rfl, fun seed hash tableSize mixConstant =>
    exec_eq_answered (seedMix64_toNat Config.params seed hash tableSize mixConstant)⟩

/-- Settles O37: `seedMix32_toNat` with the unit's parameters and default mix constant, answered. -/
theorem smixd32Answers : Obligations.Smixd32Answers :=
  ⟨fun _ _ _ _ => rfl, fun seed hash tableSize => exec_eq_answered
    (toNat_zext64_of_toNat (seedMix32_toNat Config.params seed hash tableSize Config.params.mixConstantDefault))⟩

/-- Settles O38: `seedMix64_toNat` with the unit's parameters and default mix constant, answered. -/
theorem smixd64Answers : Obligations.Smixd64Answers :=
  ⟨fun _ _ _ _ => rfl, fun seed hash tableSize => exec_eq_answered
    (seedMix64_toNat Config.params seed hash tableSize Config.params.mixConstantDefault)⟩

end Sys2Proof.Machine

/-! PROOFS. The statements of spec/45_host_compositions.md: the halves of the string hash (R197), the normal forms of
the floats (R192, R193), and the folds over elements (R206 to R209). -/

namespace Sys2Proof.Machine

/-! ### The two streams of the 64-bit string hash -/

theorem zext64_shiftLeft_or_zext64 (high low : Word32) : (zext64 high <<< 32) ||| zext64 low = high ++ low := by
  have hfit : high.toNat <<< 32 < 2 ^ 64 := by
    rw [Nat.shiftLeft_eq]
    omega
  refine BitVec.eq_of_toNat_eq ?_
  rw [BitVec.toNat_or, BitVec.toNat_shiftLeft, zext64_toNat, zext64_toNat, Nat.mod_eq_of_lt hfit, BitVec.toNat_append]

/-- The streams do not mix: each half is the 32-bit hash of its own bytes, from its own half of the seed (R196). -/
theorem hashBytes64_eq_append (seed : Word64) (bytes : List Byte) : hashBytes64 seed bytes =
    hashBytes32 (seed.extractLsb' 32 32) (bytes.map (· ^^^ 0xFF#8)) ++ hashBytes32 (seed.extractLsb' 0 32) bytes := by
  cases bytes with
  | nil => exact (BitVec.zero_append_zero (v := 32) (w := 32)).symm
  | cons b bs => exact zext64_shiftLeft_or_zext64 _ _

theorem hashBytes64_low (seed : Word64) (bytes : List Byte) :
    (hashBytes64 seed bytes).extractLsb' 0 32 = hashBytes32 (seed.extractLsb' 0 32) bytes := by
  rw [hashBytes64_eq_append]
  exact BitVec.extractLsb'_append_eq_right

theorem hashBytes64_high (seed : Word64) (bytes : List Byte) : (hashBytes64 seed bytes).extractLsb' 32 32 =
    hashBytes32 (seed.extractLsb' 32 32) (bytes.map (· ^^^ 0xFF#8)) := by
  rw [hashBytes64_eq_append]
  exact BitVec.extractLsb'_append_eq_left

/-- The step is injective in the byte (R114). -/
theorem hashBytes32_singleton_injective (seed : Word32) : Function.Injective (fun byte => hashBytes32 seed [byte]) := by
  obtain ⟨-, -, -, -, hinjective⟩ := crcStepAlgebra
  exact hinjective seed

theorem byte_xor_allOnes_ne (byte : Byte) : byte ^^^ 0xFF#8 ≠ byte := fun h =>
  absurd ((BitVec.xor_right_inj byte).mp (h.trans BitVec.xor_zero.symm)) (by decide)

/-- Settles O56: the low stream is the 32-bit hash; the halves of a one-byte hash are steps by two different bytes. -/
theorem dualStreamHalves : Obligations.DualStreamHalves := by
  refine ⟨fun bytes => hashBytes64_low 0 bytes, fun h byte => ?_⟩
  rw [hashBytes64_high, hashBytes64_low, BitVec.extractLsb'_append_eq_left, BitVec.extractLsb'_append_eq_right]
  exact (hashBytes32_singleton_injective h).ne (byte_xor_allOnes_ne byte)

/-! ### The normal forms of the floats, over unsigned numbers -/

/-- A field of a word as a number: divide by its place, keep its width. -/
theorem extractLsb'_eq_iff {n : Nat} (x : BitVec n) (start len : Nat) (v : BitVec len) :
    x.extractLsb' start len = v ↔ x.toNat / 2 ^ start % 2 ^ len = v.toNat := by
  rw [← BitVec.toNat_inj, BitVec.extractLsb'_toNat, Nat.shiftRight_eq_div_pow]

theorem normalizeFloat_eq (sp : SoftParams) (x : Word32) : normalizeFloat sp x =
    if x.toNat % 2 ^ 31 = 0 then 0
    else if x.toNat / 2 ^ 23 % 2 ^ 8 = 255 ∧ x.toNat % 2 ^ 23 ≠ 0 then sp.canonNan32 else x := by
  simp [normalizeFloat, extractLsb'_eq_iff]

theorem normalizeDouble_eq (sp : SoftParams) (x : Word64) : normalizeDouble sp x =
    if x.toNat % 2 ^ 63 = 0 then 0
    else if x.toNat / 2 ^ 52 % 2 ^ 11 = 2047 ∧ x.toNat % 2 ^ 52 ≠ 0 then sp.canonNan64 else x := by
  simp [normalizeDouble, extractLsb'_eq_iff]

theorem normalizeFloat_zero {sp : SoftParams} {x : Word32} (h : x.toNat % 2 ^ 31 = 0) : normalizeFloat sp x = 0 := by
  rw [normalizeFloat_eq, if_pos h]

theorem normalizeDouble_zero {sp : SoftParams} {x : Word64} (h : x.toNat % 2 ^ 63 = 0) : normalizeDouble sp x = 0 := by
  rw [normalizeDouble_eq, if_pos h]

/-- A NaN's fraction is not 0, so it is no zero. -/
theorem normalizeFloat_nan {sp : SoftParams} {x : Word32} (hexp : x.toNat / 2 ^ 23 % 2 ^ 8 = 255)
    (hfrac : x.toNat % 2 ^ 23 ≠ 0) : normalizeFloat sp x = sp.canonNan32 := by
  rw [normalizeFloat_eq, if_neg (by omega), if_pos ⟨hexp, hfrac⟩]

/-- The same at 64 bits. -/
theorem normalizeDouble_nan {sp : SoftParams} {x : Word64} (hexp : x.toNat / 2 ^ 52 % 2 ^ 11 = 2047)
    (hfrac : x.toNat % 2 ^ 52 ≠ 0) : normalizeDouble sp x = sp.canonNan64 := by
  rw [normalizeDouble_eq, if_neg (by omega), if_pos ⟨hexp, hfrac⟩]

/-- The zero rule at every pair of widths: each `HINT` form returns 0 for 0 (R137). -/
theorem hashUnsigned_zero (w n : Width) (seed : BitVec w.bits) : hashUnsigned w seed n 0 = 0 := by
  cases w <;> cases n
  · exact hashInt32_zero seed
  · exact hashInt32From64_zero seed
  · exact hashInt64_zero seed
  · exact hashInt64_zero seed

/-- Settles O57: a zero's normal form is 0, which hashes to 0; every NaN has one and the same normal form. -/
theorem floatHashNormalises : Obligations.FloatHashNormalises := by
  intro sp w seed
  refine ⟨fun x hx => ?_, fun x hx => ?_, fun x y hxe hxf hye hyf => ?_, fun x y hxe hxf hye hyf => ?_⟩
  · rw [hashFloat, normalizeFloat_zero hx]
    exact hashUnsigned_zero w .w32 seed
  · rw [hashDouble, normalizeDouble_zero hx]
    exact hashUnsigned_zero w .w64 seed
  · rw [hashFloat, hashFloat, normalizeFloat_nan hxe hxf, normalizeFloat_nan hye hyf]
  · rw [hashDouble, hashDouble, normalizeDouble_nan hxe hxf, normalizeDouble_nan hye hyf]

/-! ### The folds over elements -/

/-- The hasher's own recursion over the elements is a fold over their hashes (R198). -/
theorem foldValues_eq_foldl (p : Params) (sp : SoftParams) (w : Width) (seed acc : BitVec w.bits) (vs : List Value) :
    foldValues p sp w seed acc vs = (vs.map (hashValue p sp w seed)).foldl (combineAt p w) acc := by
  induction vs generalizing acc with
  | nil => rw [foldValues, List.map_nil, List.foldl_nil]
  | cons v vs ih => rw [foldValues, ih, List.map_cons, List.foldl_cons]

theorem hashValue_array (p : Params) (sp : SoftParams) (w : Width) (seed : BitVec w.bits) (vs : List Value) :
    hashValue p sp w seed (.array vs) = (vs.map (hashValue p sp w seed)).foldl (combineAt p w) seed := by
  rw [hashValue, foldValues_eq_foldl]

theorem hashValue_sequence (p : Params) (sp : SoftParams) (w : Width) (seed : BitVec w.bits) (vs : List Value) :
    hashValue p sp w seed (.sequence vs) = (vs.map (hashValue p sp w seed)).foldl (combineAt p w)
      (combineAt p w seed (hashLength sp w seed vs.length)) := by
  rw [hashValue, foldValues_eq_foldl]

/-- An array's last element is the second operand of the last combine. -/
theorem hashValue_array_concat (p : Params) (sp : SoftParams) (w : Width) (seed : BitVec w.bits) (vs : List Value)
    (v : Value) : hashValue p sp w seed (.array (vs ++ [v])) =
      combineAt p w (hashValue p sp w seed (.array vs)) (hashValue p sp w seed v) := by
  rw [hashValue_array, List.map_append, List.foldl_append, ← hashValue_array]
  rfl

/-- Length 0 hashes to 0, the second operand of the combine for an absent optional (R204). -/
theorem hashValue_sequence_nil (p : Params) (sp : SoftParams) (w : Width) (seed : BitVec w.bits) :
    hashValue p sp w seed (.sequence []) = hashValue p sp w seed .absent := by
  rw [hashValue_sequence, List.length_nil, hashLength_zero, hashValue]
  rfl

/-- Settles O58: tuple, array, slice and sequence are folds over the elements' hashes, the first three from the seed. -/
theorem sequencesFoldTheDefaultCombine : Obligations.SequencesFoldTheDefaultCombine := by
  refine fun p sp w seed => ⟨fun vs v => ⟨hashValue_array_concat p sp w seed vs v, ?_, ?_⟩,
    hashValue_array p sp w seed [], hashValue_sequence p sp w seed, hashValue_sequence_nil p sp w seed⟩
  · rw [hashValue, hashValue]
  · rw [hashValue, hashValue]

end Sys2Proof.Machine

/-! PROOFS. The statements of spec/60_exceptions.md: what a reserved command is answered (R231), and that a legal request
always completes (R230). -/

namespace Sys2Proof.Machine

/-- A reserved request that has been taken gets one response more with `ERR = 1`, and no bit of the unit changes. -/
theorem answerReserved_eq (s : State) : answerReserved s =
    { s with answers := s.answers ++ [⟨s.serving, errResponse s.draws⟩], draws := s.draws + 1 } := rfl

/-- Settles O4: the lone request is taken without a draw, fails to decode, and gets the error response of that draw. -/
theorem reservedCommandIsAnsweredWithErr : Obligations.ReservedCommandIsAnsweredWithErr := by
  intro s p e hr hp hd
  refine ⟨Config.unspecifiedResult s.draws, ?_⟩
  rw [step_of_select_some hr (select_of_pending_singleton hp), serve_of_decode_error hd, answerReserved_eq, errResponse]

/-- Settles O5: every meaning delivers `ERR = 0` with its result, and what precedes that leaves `serving` and `answers`. -/
theorem everyOperationCompletes : Obligations.EveryOperationCompletes := by
  intro i s
  refine ⟨_, exec_eq i s, ?_⟩
  rw [deliver_answers, beforeAnswer_answers, beforeAnswer_serving]

end Sys2Proof.Machine

/-! PROOFS. The statements of spec/70_reset_and_hazards.md: every request is answered however many keep coming (R268,
R263), and what reset leaves (R261), drops (R260) and makes a host wait for in vain (I14). -/

namespace Sys2Proof.Machine

/-! ### Which of the outstanding requests is taken -/

/-- Two places of one list: they are the same, or the first stands before the second, or after it. -/
theorem append_cons_eq_append_cons_cases {α : Type} {before₁ after₁ before₂ after₂ : List α} {x y : α}
    (h : before₁ ++ x :: after₁ = before₂ ++ y :: after₂) :
    (before₁ = before₂ ∧ x = y) ∨ (∃ between, before₂ = before₁ ++ x :: between ∧ after₁ = between ++ y :: after₂) ∨
      ∃ between, before₁ = before₂ ++ y :: between := by
  obtain ⟨mid, hbefore, htail⟩ | ⟨mid, hbefore, htail⟩ := List.append_eq_append_iff.mp h <;>
    obtain _ | ⟨z, between⟩ := mid <;> obtain ⟨rfl, rfl⟩ := List.cons.inj htail
  · exact .inl ⟨by simp [hbefore], rfl⟩
  · exact .inr (.inl ⟨between, hbefore, rfl⟩)
  · exact .inl ⟨by simp [hbefore], rfl⟩
  · exact .inr (.inr ⟨between, hbefore⟩)

/-- A request at the end of its patience has its own requester chosen, or that of a request before it (R268). -/
theorem chosenRequester_of_patience_zero {draw : Nat} {p w : Waiting} {rest before after : List Waiting}
    (hsplit : p :: rest = before ++ w :: after) (hw : w.patience = 0) :
    ∃ x ∈ before ++ [w], chosenRequester draw p rest = x.issued.requester := by
  obtain ⟨x, hx⟩ : ∃ x, (before ++ [w]).find? (fun x => x.patience == 0) = some x :=
    Option.isSome_iff_exists.mp (List.find?_isSome.mpr ⟨w, by simp, by simp [hw]⟩)
  refine ⟨x, List.mem_of_find?_eq_some hx, chosenRequester_of_find draw p x rest ?_⟩
  rw [hsplit, List.append_cons, List.find?_append, hx, Option.some_or]

/-- With requests outstanding, the oldest of some requester is taken from among them, and every other one is passed
over. While a request's patience is at an end, no requester is served that has none up to that request's place. -/
theorem select_splits_pending {s : State} (hp : s.pending ≠ []) :
    ∃ u older x younger, select s = some u ∧ s.pending = older ++ x :: younger ∧ u.serving = x.issued ∧
      u.pending = passOver (older ++ younger) ∧ (∀ y ∈ older, y.issued.requester ≠ x.issued.requester) ∧
      ∀ before w after, s.pending = before ++ w :: after → w.patience = 0 →
        ∃ y ∈ before ++ [w], y.issued.requester = x.issued.requester := by
  cases hpending : s.pending with
  | nil => exact absurd hpending hp
  | cons p rest =>
    obtain ⟨older, younger, hsplit, hrest, hrequester, holder⟩ :=
      takeOldest_split _ p rest (chosenRequester_mem s.draws p rest)
    refine ⟨_, older, _, younger, by rw [select, hpending], hsplit, rfl, congrArg passOver hrest,
      by rwa [hrequester], fun before w after hw hzero => ?_⟩
    obtain ⟨y, hy, hchosen⟩ := chosenRequester_of_patience_zero (draw := s.draws) hw hzero
    exact ⟨y, hy, hchosen.symm.trans hrequester.symm⟩

/-- A step without reset answers the request that `select` takes, and leaves the others outstanding. -/
theorem step_answers_selected {s u : State} (hr : s.resetLine = false) (hu : select s = some u) :
    ∃ t a, step s = .next t ∧ t.resetLine = false ∧ t.pending = u.pending ∧ t.answers = s.answers ++ [a] ∧
      RightAnswer a ∧ a.issued = u.serving := by
  rcases step_cases s with ⟨hreset, -⟩ | ⟨-, hnone, -⟩ | ⟨-, -, v, hv, -, -, -, -, hans, hline, hanswer⟩
  · cases hr.symm.trans hreset
  · simp [select, hnone] at hu
  · obtain rfl := Option.some.inj (hv.symm.trans hu)
    obtain ⟨i, hd, hs⟩ | ⟨e, hd, hs⟩ := hanswer
    · exact ⟨_, ⟨v.serving, ⟨resultOf Config.params i, false⟩⟩, hs, by simp [hline], by simp, by simp [hans],
        rightAnswer_of_decode_ok hd rfl, rfl⟩
    · exact ⟨_, ⟨v.serving, errResponse v.draws⟩, hs, hline, rfl, by simp [hans],
        rightAnswer_of_decode_error hd rfl, rfl⟩

/-! ### A request waits its turn: each step answers one before it, or wears its patience down -/

/-- The requests of `w`'s requester up to and including `w`, `before` being those outstanding ahead of it. -/
def requestsUpTo (before : List Waiting) (w : Waiting) : List Issued :=
  ((before ++ [w]).map Waiting.issued).filter (fun x => x.requester == w.issued.requester)

/-- `w` with one request less that may still be served before it (log entry 21). -/
def Waiting.passed (w : Waiting) : Waiting := { w with patience := w.patience - 1 }

@[simp] theorem Waiting.passed_issued (w : Waiting) : w.passed.issued = w.issued := rfl

@[simp] theorem Waiting.passed_patience (w : Waiting) : w.passed.patience = w.patience - 1 := rfl

theorem passOver_split (before after : List Waiting) (w : Waiting) :
    passOver (before ++ w :: after) = passOver before ++ w.passed :: passOver after :=
  passOver_append before (w :: after)

@[simp] theorem requestsUpTo_passOver (before : List Waiting) (w : Waiting) :
    requestsUpTo (passOver before) w.passed = requestsUpTo before w := by
  simp [requestsUpTo]

theorem filter_older_eq_nil {older : List Waiting} {x : Waiting}
    (holder : ∀ y ∈ older, y.issued.requester ≠ x.issued.requester) :
    (older.map Waiting.issued).filter (fun y => y.requester == x.issued.requester) = [] := by
  simpa [List.filter_eq_nil_iff] using holder

/-- A request of which its requester has no older one comes first among those of any one requester. -/
theorem requestsUpTo_of_oldest {older between : List Waiting} {x w : Waiting}
    (holder : ∀ y ∈ older, y.issued.requester ≠ x.issued.requester) :
    requestsUpTo (older ++ x :: between) w =
      [x.issued].filter (fun y => y.requester == w.issued.requester) ++ requestsUpTo (older ++ between) w := by
  by_cases hx : x.issued.requester = w.issued.requester
  · simp [requestsUpTo, ← hx, filter_older_eq_nil holder]
  · simp [requestsUpTo, hx]

theorem requestsUpTo_self {older : List Waiting} {w : Waiting}
    (holder : ∀ y ∈ older, y.issued.requester ≠ w.issued.requester) :
    requestsUpTo older w = [w.issued].filter (fun y => y.requester == w.issued.requester) := by
  simp [requestsUpTo, filter_older_eq_nil holder]

/-- After the answer to `x`, `w` is still outstanding at a place and a patience whose sum is smaller, and its requester
waits for the same requests but for `x`. -/
def StillWaits (before : List Waiting) (w : Waiting) (x : Issued) (t : State) : Prop :=
  ∃ before' w' after', t.pending = before' ++ w' :: after' ∧ w'.issued = w.issued ∧
    before'.length + w'.patience < before.length + w.patience ∧
    requestsUpTo before w =
      [x].filter (fun y => y.requester == w.issued.requester) ++ requestsUpTo before' w'

/-- The request taken is `w`, or stands before it and leaves it one place less, or stands after it and costs it patience
(which it then has: R268). -/
theorem step_answers_or_stillWaits {s : State} {before after : List Waiting} {w : Waiting} (hr : s.resetLine = false)
    (hw : s.pending = before ++ w :: after) :
    ∃ t a, step s = .next t ∧ t.resetLine = false ∧ t.answers = s.answers ++ [a] ∧ RightAnswer a ∧
      (requestsUpTo before w = [a.issued].filter (fun y => y.requester == w.issued.requester) ∨
        StillWaits before w a.issued t) := by
  obtain ⟨u, older, x, younger, hu, hx, hserving, hpending, holder, hfair⟩ :=
    select_splits_pending (s := s) (by simp [hw])
  obtain ⟨t, a, hs, hline, ht, hans, ha, hissued⟩ := step_answers_selected hr hu
  refine ⟨t, a, hs, hline, hans, ha, ?_⟩
  rw [hissued, hserving]
  rw [hpending] at ht
  obtain ⟨rfl, rfl⟩ | ⟨between, rfl, rfl⟩ | ⟨between, rfl⟩ := append_cons_eq_append_cons_cases (hx.symm.trans hw)
  · exact .inl (requestsUpTo_self holder)
  · refine .inr ⟨passOver (older ++ between), w.passed, passOver after, ?_, rfl, ?_, ?_⟩
    · rw [ht, ← List.append_assoc, passOver_split]
    · simp only [passOver_length, List.length_append, List.length_cons, Waiting.passed_patience]
      omega
    · rw [requestsUpTo_passOver, requestsUpTo_of_oldest holder]
  · have hpatience : w.patience ≠ 0 := fun hzero => by
      obtain ⟨y, hy, hsame⟩ := hfair before w after hw hzero
      exact holder y (List.append_cons before w between ▸ List.mem_append_left between hy) hsame
    have hother : x.issued.requester ≠ w.issued.requester := (holder w (by simp)).symm
    refine .inr ⟨passOver before, w.passed, passOver (between ++ younger), ?_, rfl, ?_, ?_⟩
    · rw [ht, List.append_assoc, List.cons_append, passOver_split]
    · rw [passOver_length, Waiting.passed_patience]
      omega
    · simp [hother]

/-! ### Turn after turn -/

theorem issueAll_cons (n : Nat × Request) (news : List (Nat × Request)) (s : State) :
    issueAll (n :: news) s = issueAll news (s.issue n.1 n.2) := rfl

@[simp] theorem issueAll_answers (news : List (Nat × Request)) (s : State) : (issueAll news s).answers = s.answers := by
  induction news generalizing s with
  | nil => rfl
  | cons n news ih => rw [issueAll_cons, ih, State.issue_answers]

@[simp] theorem issueAll_resetLine (news : List (Nat × Request)) (s : State) :
    (issueAll news s).resetLine = s.resetLine := by
  induction news generalizing s with
  | nil => rfl
  | cons n news ih => rw [issueAll_cons, ih, State.issue_resetLine]

theorem issueAll_pending (news : List (Nat × Request)) (s : State) :
    ∃ issued, (issueAll news s).pending = s.pending ++ issued := by
  induction news generalizing s with
  | nil => exact ⟨[], (List.append_nil _).symm⟩
  | cons n news ih =>
    obtain ⟨issued, h⟩ := ih (s.issue n.1 n.2)
    rw [State.issue_pending, List.append_assoc] at h
    exact ⟨_, h⟩

theorem runTurns_cons_of_step {news : List (Nat × Request)} {turns : List (List (Nat × Request))} {s t : State}
    (h : step (issueAll news s) = .next t) : runTurns (news :: turns) s = runTurns turns t := by
  simp only [runTurns, h]

/-- A run of turns never stops, keeps the answers given, and gives right ones only. -/
theorem runTurns_answers_right (turns : List (List (Nat × Request))) (s : State) :
    ∃ t new, runTurns turns s = .next t ∧ t.answers = s.answers ++ new ∧ ∀ a ∈ new, RightAnswer a := by
  induction turns generalizing s with
  | nil => exact ⟨s, [], rfl, by simp, by simp⟩
  | cons news turns ih =>
    obtain ⟨u, hu⟩ := step_total (issueAll news s)
    obtain ⟨t, new, hrun, hans, hright⟩ := ih u
    rw [runTurns_cons_of_step hu]
    obtain hsame | ⟨a, ha, hmore⟩ := step_answers hu
    · exact ⟨t, new, hrun, by simpa [hsame] using hans, hright⟩
    · exact ⟨t, a :: new, hrun, by simpa [hmore] using hans, List.forall_mem_cons.mpr ⟨ha, hright⟩⟩

theorem map_issued_cons (a : Answer) (new : List Answer) :
    (a :: new).map Answer.issued = [a.issued] ++ new.map Answer.issued := rfl

/-- By induction on the turns: the first turn's step answers `w`, or leaves it waiting for less than the
turns to come. -/
theorem runTurns_answers_requestsUpTo {turns : List (List (Nat × Request))} {s : State} {before after : List Waiting}
    {w : Waiting} (hr : s.resetLine = false) (hw : s.pending = before ++ w :: after)
    (hturns : before.length + w.patience < turns.length) :
    ∃ t new, runTurns turns s = .next t ∧ t.answers = s.answers ++ new ∧ (∀ a ∈ new, RightAnswer a) ∧
      requestsUpTo before w <+: (new.map Answer.issued).filter (fun x => x.requester == w.issued.requester) := by
  induction turns generalizing s before w after with
  | nil => exact absurd hturns (Nat.not_lt_zero _)
  | cons news turns ih =>
    obtain ⟨issued, hissued⟩ := issueAll_pending news s
    obtain ⟨u, a, hu, hline, hans, ha, hanswered | ⟨before', w', after', hw', hsame, hless, hupTo⟩⟩ :=
      step_answers_or_stillWaits (s := issueAll news s) (before := before) (w := w) (after := after ++ issued)
        (by simpa using hr) (by simp [hissued, hw])
    all_goals rw [issueAll_answers] at hans
    · obtain ⟨t, new, hrun, hans', hright⟩ := runTurns_answers_right turns u
      refine ⟨t, a :: new, (runTurns_cons_of_step hu).trans hrun, by simp [hans', hans],
        List.forall_mem_cons.mpr ⟨ha, hright⟩, ?_⟩
      rw [hanswered, map_issued_cons, List.filter_append]
      exact List.prefix_append _ _
    · obtain ⟨t, new, hrun, hans', hright, hprefix⟩ := ih hline hw' (by rw [List.length_cons] at hturns; omega)
      refine ⟨t, a :: new, (runTurns_cons_of_step hu).trans hrun, by simp [hans', hans],
        List.forall_mem_cons.mpr ⟨ha, hright⟩, ?_⟩
      rw [hsame] at hprefix
      rw [hupTo, map_issued_cons, List.filter_append]
      exact (List.prefix_append_right_inj _).mpr hprefix

/-- Settles O59: what counts down is a request's place plus its patience. -/
theorem noRequestIsPassedOverForEver : Obligations.NoRequestIsPassedOverForEver :=
  fun _ _ _ _ _ hr hw hturns => runTurns_answers_requestsUpTo hr hw hturns

/-! ### Reset -/

/-- Nothing outstanding and no answer there: none comes, however long the host waits. -/
theorem awaitAnswer_of_nothing_outstanding {r k : Nat} {s : State} (fuel : Nat) (hr : s.resetLine = false)
    (hp : s.pending = []) (hnone : (answersTo r s)[k]? = none) : awaitAnswer r k fuel s = none := by
  induction fuel with
  | zero => rw [awaitAnswer, hnone, Option.map_none]
  | succ fuel ih => rw [awaitAnswer_of_step hnone (step_of_pending_nil hr hp), ih]

/-- A request issued while reset is asserted is dropped with the others: no response to it comes (log entry 8). -/
theorem ask_of_resetLine (r : Nat) (q : Request) {s : State} (hr : s.resetLine = true) : ask r q s = none := by
  have hnone : (answersTo r (s.issue r q))[(answersTo r s).length + (outstandingOf r s).length]? = none :=
    List.getElem?_eq_none (Nat.le_add_right _ _)
  have hreset : step (s.issue r q) = .next (performReset (s.issue r q)) := step_of_resetLine hr
  rw [ask, awaitAnswer_of_step hnone hreset]
  exact awaitAnswer_of_nothing_outstanding _ rfl rfl hnone

/-- Settles O55: the line is well formed and its operands have values, so the listing waits, in vain. -/
theorem droppedRequestGetsNoResponse : Obligations.DroppedRequestGetsNoResponse := by
  intro r st byte s hr
  have hwf : lineWellFormed 0 ⟨0x04#8, [.lit st, .lit byte]⟩ = true := lineWellFormed_byteLine byte rfl rfl
  simp [runListing, hwf, evalOperands, evalHost, ask_of_resetLine r _ hr]

/-- Settles O1: the step is the reset, which puts `CAP_VALID` to 0. -/
theorem resetLeavesProbeNotRun : Obligations.ResetLeavesProbeNotRun :=
  ⟨rfl, fun s hr => ⟨performReset s, step_of_resetLine hr, performReset_capValid s⟩⟩

/-- Settles O2: the step is the reset, so a request issued after it is the one outstanding. -/
theorem resetDropsOutstandingRequests : Obligations.ResetDropsOutstandingRequests :=
  ⟨rfl, fun s r q hr => ⟨performReset s, step_of_resetLine hr, performReset_pending s, performReset_answers s,
    performReset_resetLine s, by simp⟩⟩

end Sys2Proof.Machine
